-- ==== Sys2Proof/Word.lean ====
section
/-! DEFINITION. The words of the block: a byte is 8 bits and every value is unsigned (00_scope.md R10). -/

namespace Sys2Proof

/-- A byte: 8 bits (R10). -/
abbrev Byte := BitVec 8

/-- A 16-bit word: an argument word of a command frame (R120) or an R2 response (R94). -/
abbrev Half := BitVec 16

/-- A 32-bit word: a Sector Address or a byte offset (R55). -/
abbrev Addr := BitVec 32

end Sys2Proof
end

