-- ==== Sys2Proof/Config.lean ====
section
/-! DEFINITION. What is fixed before execution: the named constants of 00_scope.md R7, the parameter R2_TABLE of
42_error_classifier.md R159, and the free values (the transport's unconstrained answers, 60_exceptions.md R261, and
CONTROL_VALUE, 46_control.md R241). -/

namespace Sys2Proof.Config

/-- `IDLE`: the idle or pad byte, also the "no response yet" value (R7). -/
abbrev idleByte : Byte := 0xFF#8
/-- `CMD_FLAG`: OR-ed with the command index to form the command byte (R7). -/
abbrev cmdFlag : Byte := 0x40#8
/-- `CHECKSUM`: the checksum byte of every command frame (R7, R83). -/
abbrev checksum : Byte := 0x95#8
/-- `TOKEN_START`: the data start token (R7, R102). -/
abbrev tokenStart : Byte := 0xFE#8
/-- `CRC_FILL`: each of the two checksum bytes sent on write (R7, R226). -/
abbrev crcFill : Byte := 0xFF#8
/-- `R1_IN_IDLE`: the R1 value that ends the reset stage (R7, R179). -/
abbrev r1InIdle : Byte := 0x01#8
/-- `R1_READY`: the R1 value that ends the operating-condition stage (R7, R181). -/
abbrev r1Ready : Byte := 0x00#8
/-- `IDX_GO_IDLE` (R7). -/
abbrev idxGoIdle : BitVec 6 := 0#6
/-- `IDX_OP_COND` (R7). -/
abbrev idxOpCond : BitVec 6 := 1#6
/-- `IDX_STATUS` (R7). -/
abbrev idxStatus : BitVec 6 := 13#6
/-- `IDX_READ` (R7). -/
abbrev idxRead : BitVec 6 := 17#6
/-- `IDX_WRITE` (R7). -/
abbrev idxWrite : BitVec 6 := 24#6
/-- `FRAME_LEN`: bytes emitted per command (R7). -/
abbrev frameLen : Nat := 8
/-- `SECTOR_SIZE` (R7). -/
abbrev sectorSize : Nat := 512
/-- `N_R1_POLL`: maximum idle-byte exchanges in one Read R1 (R7). -/
abbrev nR1Poll : Nat := 8
/-- `N_RESET`: maximum attempts of the reset stage (R7). -/
abbrev nReset : Nat := 512
/-- `N_OPCOND`: maximum attempts of the operating-condition stage (R7). -/
abbrev nOpCond : Nat := 32000
/-- `N_TOKEN`: maximum polls for the data start token (R7). -/
abbrev nToken : Nat := 65535
/-- `N_CRC`: checksum bytes after a payload, both directions (R7). -/
abbrev nCrc : Nat := 2

/-- The nine patterns of the R2 classifier (R95, R159). -/
structure R2Table where
  ready : Half
  locked : Half
  eraseSkipLockFailed : Half
  generalError : Half
  controllerError : Half
  eccFailure : Half
  writeProtectViolation : Half
  invalidEraseSelection : Half
  outOfRange : Half
  deriving DecidableEq, Repr

/-- `R2_TABLE` at the values of R95. PRESUMED (the spec takes the bit positions from general knowledge, D10, G1; log
entry 22). Only diagnostic labels depend on it. -/
def r2Table : R2Table :=
  { ready := 0x0000#16, locked := 0x0001#16, eraseSkipLockFailed := 0x0002#16, generalError := 0x0004#16
    controllerError := 0x0008#16, eccFailure := 0x0010#16, writeProtectViolation := 0x0020#16
    invalidEraseSelection := 0x0040#16, outOfRange := 0x0080#16 }

/-- The answer of the unconstrained transport at its `n`-th free draw: any byte (R261, U1). A free value: it has no
body, so nothing can be proved of it (log entry 1). -/
opaque freeAnswer : Nat → Byte

/-- `CONTROL_VALUE` at the `n`-th free draw: any 16-bit value, fresh each call (R241, D17, U8). A free value: it has no
body (log entry 3). -/
opaque controlValue : Nat → Half

end Sys2Proof.Config
end

