-- ==== Sys2Proof/Syntax.lean ====
section
/-! DEFINITION. The instructions: one constructor per row of spec/opcode_table.json (host requests, internal procedures,
wire commands, markers, response patterns, result words, data blocks, diagnostic events), and the class labels of the
Error Classifier that two of them carry. -/

namespace Sys2Proof

/-- The labels of CLASSIFY_R1 (R90, R156): the seven single-bit conditions, or `Unknown` with the raw byte. -/
inductive R1Label where
  | initializing
  | eraseReset
  | illegalCommand
  | crcFailed
  | eraseSequenceError
  | addressOutOfBounds
  | argumentOutOfBounds
  | unknown (b : Byte)
  deriving DecidableEq, Repr

/-- The labels of CLASSIFY_R2 (R95, R158): the nine table entries, an R1 label when the classifier delegated to the
high byte, or `Unknown` with the raw word. -/
inductive R2Label where
  | ready
  | locked
  | eraseSkipLockFailed
  | generalError
  | controllerError
  | eccFailure
  | writeProtectViolation
  | invalidEraseSelection
  | outOfRange
  | ofR1 (l : R1Label)
  | unknown (w : Half)
  deriving DecidableEq, Repr

/-- The rows of spec/opcode_table.json, in the table's order. The operand `ignored` is the `addr` field that R98 says
an operation without an address ignores; it is kept so that no bit of the request word is dropped (log entry 29). -/
inductive Instr where
  -- CMDFRAME: the Command Framer (R120, R123 to R127)
  | sendCommand (index : BitVec 6) (argHi argLo : Half)
  | cmd0
  | cmd1
  | cmd13
  | cmd17 (addr : Addr)
  | cmd24 (addr : Addr)
  -- HOSTREQ: the host operations and the codes that name none (R98)
  | controlNoop (ignored : BitVec 32)
  | initializeCard (ignored : BitVec 32)
  | readSector (addr : Addr)
  | writeSector (addr : Addr)
  | controlQuerySectorCount (ignored : BitVec 32)
  | hostReqReserved5 (ignored : BitVec 32)
  | hostReqReserved6 (ignored : BitVec 32)
  | hostReqReserved7 (ignored : BitVec 32)
  -- TOKEN8: the Response Decoder's procedures and the markers (R140, R144, R102)
  | readR1
  | readR2
  | idle
  | dataStartToken
  -- R1: response values and the arms of CLASSIFY_R1 (R91, R156)
  | r1NoResponse
  | r1Ready
  | r1Initializing
  | r1EraseReset
  | r1IllegalCommand
  | r1CrcFailed
  | r1EraseSequenceError
  | r1AddressOutOfBounds
  | r1ArgumentOutOfBounds
  | r1Unknown (raw : Byte)
  -- R2: the arms of CLASSIFY_R2 (R158)
  | r2Ready
  | r2Locked
  | r2EraseSkipLockFailed
  | r2GeneralError
  | r2ControllerError
  | r2EccFailure
  | r2WriteProtectViolation
  | r2InvalidEraseSelection
  | r2OutOfRange
  | r2DelegateR1 (high low : Byte)
  | r2Unknown (low : Byte)
  -- RESULT: the ends of an operation (R99, R100)
  | resultOk (info : Half)
  | resultNoResponse (info : Half)
  | resultUnexpectedResetResponse (info : Half)
  | resultCardNotReady (info : Half)
  | resultStatusNotReady (info : Half)
  | resultProtocolError (info : Half)
  | resultFramingError (info : Half)
  | resultBusyTimeout (info : Half)
  -- RDBLOCK, WRBLOCK: the data blocks (R96, R97)
  | rdblock
  | wrblock
  -- DIAGEVT: the diagnostic events (R101)
  | diagR1Class (label : R1Label) (raw : Byte)
  | diagR2Class (label : R2Label) (raw : Half)
  -- the Error Classifier's procedures (R156, R158)
  | classifyR1 (b : Byte)
  | classifyR2 (w : Half)
  deriving DecidableEq, Repr

end Sys2Proof
end

