-- ==== Sys2Proof/WellFormed.lean ====
section
/-! DEFINITION. Which instruction terms a word can spell, read from the rules of 30_encoding.md and
42_error_classifier.md: the checks of `Instr.wellFormed`. -/

namespace Sys2Proof

/-- The seven single-bit R1 values (R90, R156). -/
def isR1Flag (b : Byte) : Bool :=
  b = 0x01#8 || b = 0x02#8 || b = 0x04#8 || b = 0x08#8 || b = 0x10#8 || b = 0x20#8 || b = 0x40#8

/-- The low bytes of the nine R2 patterns, each with a zero high byte (R95). -/
def isR2Low (b : Byte) : Bool :=
  b = 0x00#8 || b = 0x01#8 || b = 0x02#8 || b = 0x04#8 || b = 0x08#8 || b = 0x10#8 || b = 0x20#8 || b = 0x40#8
    || b = 0x80#8

/-- The `Unknown` label of an R1 event carries the event's own raw byte (R156). -/
def R1Label.fits (l : R1Label) (raw : Byte) : Bool :=
  match l with
  | .unknown b => b = raw
  | _ => true

/-- The `Unknown` label of an R2 event carries the event's raw word, and a delegated one its high byte (R158). -/
def R2Label.fits (l : R2Label) (raw : Half) : Bool :=
  match l with
  | .unknown w => w = raw
  | .ofR1 l => l.fits (raw.extractLsb' 8 8)
  | _ => true

/-- The check of one term: a sector command's frame holds 23 address bits (R126); an arm of a classifier holds only
values that reach it (R156, R158); a result word's `info` is the one R100 and R251 give its status; a diagnostic event's
`Unknown` label carries the event's raw value (R101). -/
def Instr.wellFormed : Instr → Bool
  | .sendCommand _ _ _ => true
  | .cmd0 => true
  | .cmd1 => true
  | .cmd13 => true
  | .cmd17 addr => addr.toNat < 2 ^ 23
  | .cmd24 addr => addr.toNat < 2 ^ 23
  | .controlNoop _ => true
  | .initializeCard _ => true
  | .readSector _ => true
  | .writeSector _ => true
  | .controlQuerySectorCount _ => true
  | .hostReqReserved5 _ => true
  | .hostReqReserved6 _ => true
  | .hostReqReserved7 _ => true
  | .readR1 => true
  | .readR2 => true
  | .idle => true
  | .dataStartToken => true
  | .r1NoResponse => true
  | .r1Ready => true
  | .r1Initializing => true
  | .r1EraseReset => true
  | .r1IllegalCommand => true
  | .r1CrcFailed => true
  | .r1EraseSequenceError => true
  | .r1AddressOutOfBounds => true
  | .r1ArgumentOutOfBounds => true
  | .r1Unknown raw => !isR1Flag raw
  | .r2Ready => true
  | .r2Locked => true
  | .r2EraseSkipLockFailed => true
  | .r2GeneralError => true
  | .r2ControllerError => true
  | .r2EccFailure => true
  | .r2WriteProtectViolation => true
  | .r2InvalidEraseSelection => true
  | .r2OutOfRange => true
  | .r2DelegateR1 high _ => high ≠ 0#8
  | .r2Unknown low => !isR2Low low
  | .resultOk _ => true
  | .resultNoResponse info => info = 0x00FF#16
  | .resultUnexpectedResetResponse info => info.toNat < 256 && info ≠ 0x0001#16 && info ≠ 0x00FF#16
  | .resultCardNotReady info => info.toNat < 256 && info ≠ 0x0000#16
  | .resultStatusNotReady info => info ≠ 0x0000#16
  | .resultProtocolError info => info.toNat < 256
  | .resultFramingError info => info = 0x00FF#16
  | .resultBusyTimeout info => info = 0x0000#16
  | .rdblock => true
  | .wrblock => true
  | .diagR1Class label raw => label.fits raw
  | .diagR2Class label raw => label.fits raw
  | .classifyR1 _ => true
  | .classifyR2 _ => true

end Sys2Proof
end

