-- ==== Sys2Proof/Decode.lean ====
section
/-! DEFINITION. Decoding a request's bytes to an instruction, total and rejecting by name, and the encoder. A request is one
SELECTOR byte followed by the row's bits as spec/opcode_table.json and 30_encoding.md give them, whole bytes, most
significant first (R58). The selector is the model's own (log entry 7): nine formats share the same bit patterns (an 8-bit
`FF` is READ_R1, READ_R2, IDLE, R1_NO_RESPONSE, R1_UNKNOWN and CLASSIFY_R1), and the spec tells them apart by where they
occur, not by their bits. -/

namespace Sys2Proof

/-- Which port of the block a request's bits are meant for: the HOST interface (R269) or one of the internal procedures,
patterns and events, which are exposed one by one (R87, R104). DESIGN CHOICE, log entry 7. -/
inductive Selector where
  | hostReq | frame | command | pollR1 | pollR2 | token | r1Value | r1Arm | classR1 | r2Arm | classR2 | result
  | readBlock | writeBlock | diagR1 | diagR2
  deriving DecidableEq, Repr

/-- Why a request's bytes are no instruction. -/
inductive DecodeError where
  /-- no selector byte -/
  | empty
  /-- a selector byte that names no port -/
  | unknownSelector
  /-- the number of bytes is not the format's (R80) -/
  | bodyLength
  /-- a constant bit of CMDFRAME is wrong (R81) -/
  | framePattern
  /-- a frame at the port of the five commands that is none of them (R85, R128) -/
  | notACommand
  /-- a bit above the 35 of HOSTREQ is set (R98) -/
  | hostReqPadding
  /-- a byte that is not the port's marker (R102) -/
  | notTheMarker
  /-- a byte that is not one of the two whole-byte R1 values (R91) -/
  | notAnR1Value
  /-- a bit above the 20 of RESULT is set (R100) -/
  | resultPadding
  /-- status 8 to 15: never produced (R100, R103) -/
  | resultStatus
  /-- a label code that names no class label (R101) -/
  | diagLabel
  deriving DecidableEq, Repr

/-- The selector's byte. DESIGN CHOICE, log entry 7. -/
def Selector.code : Selector → Byte
  | .hostReq => 0x00#8
  | .frame => 0x01#8
  | .command => 0x02#8
  | .pollR1 => 0x03#8
  | .pollR2 => 0x04#8
  | .token => 0x05#8
  | .r1Value => 0x06#8
  | .r1Arm => 0x07#8
  | .classR1 => 0x08#8
  | .r2Arm => 0x09#8
  | .classR2 => 0x0A#8
  | .result => 0x0B#8
  | .readBlock => 0x0C#8
  | .writeBlock => 0x0D#8
  | .diagR1 => 0x0E#8
  | .diagR2 => 0x0F#8

/-- The selector a byte names, if any. -/
def Selector.ofByte (b : Byte) : Option Selector :=
  match b.toNat with
  | 0 => some .hostReq
  | 1 => some .frame
  | 2 => some .command
  | 3 => some .pollR1
  | 4 => some .pollR2
  | 5 => some .token
  | 6 => some .r1Value
  | 7 => some .r1Arm
  | 8 => some .classR1
  | 9 => some .r2Arm
  | 10 => some .classR2
  | 11 => some .result
  | 12 => some .readBlock
  | 13 => some .writeBlock
  | 14 => some .diagR1
  | 15 => some .diagR2
  | _ => none

/-! ### Bytes and words -/

/-- Two bytes as a 16-bit word, high byte first (R58). -/
def half (hi lo : Byte) : Half := hi ++ lo

/-- Four bytes as a 32-bit word, most significant first (R58). -/
def word32 (b3 b2 b1 b0 : Byte) : Addr := b3 ++ b2 ++ b1 ++ b0

/-- The high byte of a 16-bit word. -/
def Half.high (w : Half) : Byte := w.extractLsb' 8 8

/-- The low byte of a 16-bit word. -/
def Half.low (w : Half) : Byte := w.extractLsb' 0 8

/-- The bytes of a 32-bit word, most significant first (R58). -/
def addrBytes (a : Addr) : List Byte :=
  [a.extractLsb' 24 8, a.extractLsb' 16 8, a.extractLsb' 8 8, a.extractLsb' 0 8]

/-- The low `n` bytes of a number, most significant first. -/
def bytesOf (n w : Nat) : List Byte :=
  (List.range n).map fun k => BitVec.ofNat 8 (w >>> (8 * (n - 1 - k)))

/-! ### Formats -/

/-- The three fields of a command frame (R22, R81). -/
structure Frame where
  index : BitVec 6
  argHi : Half
  argLo : Half
  deriving DecidableEq, Repr

/-- The 8 bytes of a command frame, in the order sent: leading pad, `0x40 | index`, the two argument words high byte
first, checksum `0x95`, trailing pad (R81, R120). -/
def frameBytes (index : BitVec 6) (argHi argLo : Half) : List Byte :=
  [Config.idleByte, Config.cmdFlag ||| index.setWidth 8, argHi.high, argHi.low, argLo.high, argLo.low,
    Config.checksum, Config.idleByte]

/-- The frame that 8 bytes spell; each constant bit of R81 is checked. -/
def decodeFrame : List Byte → Except DecodeError Frame
  | [p0, c, h1, h0, l1, l0, k, p1] =>
    if p0 = Config.idleByte ∧ c.extractLsb' 6 2 = 0b01#2 ∧ k = Config.checksum ∧ p1 = Config.idleByte then
      .ok { index := c.extractLsb' 0 6, argHi := half h1 h0, argLo := half l1 l0 }
    else .error .framePattern
  | _ => .error .bodyLength

/-- The byte offset `off = (address × 512) mod 2^32` (R55, R56, R86). -/
def byteOffset (addr : Addr) : Addr := ((addr.setWidth 41) <<< 9).setWidth 32

/-- `arg_hi = off[31:16]` of a sector command (R86). -/
def offsetHi (addr : Addr) : Half := (byteOffset addr).extractLsb' 16 16

/-- `arg_lo = off[15:0]` of a sector command (R86). -/
def offsetLo (addr : Addr) : Half := (byteOffset addr).extractLsb' 0 16

/-- The sector address whose offset a frame's two argument words are: `ADDR[22:0]` (R86). -/
def sectorOf (argHi argLo : Half) : Addr := (argHi ++ argLo) >>> 9

/-- Which of the five commands a frame is (R85, R123 to R127): zero arguments for indices 0, 1 and 13, nine low zero bits
of the offset for 17 and 24. -/
def commandOf (f : Frame) : Except DecodeError Instr :=
  match f.index.toNat with
  | 0 => if f.argHi = 0#16 ∧ f.argLo = 0#16 then .ok .cmd0 else .error .notACommand
  | 1 => if f.argHi = 0#16 ∧ f.argLo = 0#16 then .ok .cmd1 else .error .notACommand
  | 13 => if f.argHi = 0#16 ∧ f.argLo = 0#16 then .ok .cmd13 else .error .notACommand
  | 17 => if f.argLo.setWidth 9 = 0#9 then .ok (.cmd17 (sectorOf f.argHi f.argLo)) else .error .notACommand
  | 24 => if f.argLo.setWidth 9 = 0#9 then .ok (.cmd24 (sectorOf f.argHi f.argLo)) else .error .notACommand
  | _ => .error .notACommand

/-- HOSTREQ: `op` in bits 34:32 and `addr` in bits 31:0 of a 40-bit container whose five high bits are zero (R98). -/
def decodeHostReq : List Byte → Except DecodeError Instr
  | [o, a3, a2, a1, a0] =>
    let a := word32 a3 a2 a1 a0
    match o.toNat with
    | 0 => .ok (.controlNoop a)
    | 1 => .ok (.initializeCard a)
    | 2 => .ok (.readSector a)
    | 3 => .ok (.writeSector a)
    | 4 => .ok (.controlQuerySectorCount a)
    | 5 => .ok (.hostReqReserved5 a)
    | 6 => .ok (.hostReqReserved6 a)
    | 7 => .ok (.hostReqReserved7 a)
    | _ => .error .hostReqPadding
  | _ => .error .bodyLength

/-- The arm of CLASSIFY_R1 that a byte reaches: whole-byte equality (R156). -/
def decodeR1Arm (b : Byte) : Instr :=
  match b.toNat with
  | 0x01 => .r1Initializing
  | 0x02 => .r1EraseReset
  | 0x04 => .r1IllegalCommand
  | 0x08 => .r1CrcFailed
  | 0x10 => .r1EraseSequenceError
  | 0x20 => .r1AddressOutOfBounds
  | 0x40 => .r1ArgumentOutOfBounds
  | _ => .r1Unknown b

/-- The arm of CLASSIFY_R2 that a word reaches: whole-word equality, then the high byte (R158). -/
def decodeR2Arm (hi lo : Byte) : Instr :=
  match hi.toNat, lo.toNat with
  | 0, 0x00 => .r2Ready
  | 0, 0x01 => .r2Locked
  | 0, 0x02 => .r2EraseSkipLockFailed
  | 0, 0x04 => .r2GeneralError
  | 0, 0x08 => .r2ControllerError
  | 0, 0x10 => .r2EccFailure
  | 0, 0x20 => .r2WriteProtectViolation
  | 0, 0x40 => .r2InvalidEraseSelection
  | 0, 0x80 => .r2OutOfRange
  | 0, _ => .r2Unknown lo
  | _, _ => .r2DelegateR1 hi lo

/-- RESULT: `status` in bits 19:16 and `info` in bits 15:0 of a 24-bit container (R100). -/
def decodeResult : List Byte → Except DecodeError Instr
  | [s, i1, i0] =>
    let info := half i1 i0
    match s.toNat with
    | 0 => .ok (.resultOk info)
    | 1 => .ok (.resultNoResponse info)
    | 2 => .ok (.resultUnexpectedResetResponse info)
    | 3 => .ok (.resultCardNotReady info)
    | 4 => .ok (.resultStatusNotReady info)
    | 5 => .ok (.resultProtocolError info)
    | 6 => .ok (.resultFramingError info)
    | 7 => .ok (.resultBusyTimeout info)
    | n => if n < 16 then .error .resultStatus else .error .resultPadding
  | _ => .error .bodyLength

/-- The code of an R1 label in a diagnostic event's request: the flag's bit number, and 7 for `Unknown`. DESIGN CHOICE,
log entry 15 (the spec gives DIAGEVT no bit encoding, R101). -/
def R1Label.code : R1Label → Byte
  | .initializing => 0#8
  | .eraseReset => 1#8
  | .illegalCommand => 2#8
  | .crcFailed => 3#8
  | .eraseSequenceError => 4#8
  | .addressOutOfBounds => 5#8
  | .argumentOutOfBounds => 6#8
  | .unknown _ => 7#8

/-- The R1 label of a code; `Unknown` carries the raw byte given. -/
def R1Label.ofCode (n : Nat) (raw : Byte) : Option R1Label :=
  match n with
  | 0 => some .initializing
  | 1 => some .eraseReset
  | 2 => some .illegalCommand
  | 3 => some .crcFailed
  | 4 => some .eraseSequenceError
  | 5 => some .addressOutOfBounds
  | 6 => some .argumentOutOfBounds
  | 7 => some (.unknown raw)
  | _ => none

/-- The code of an R2 label: 0 to 8 the table entries in R158's order, 9 `Unknown`, 16 and more a delegated R1 label.
DESIGN CHOICE, log entry 15. -/
def R2Label.code : R2Label → Byte
  | .ready => 0#8
  | .locked => 1#8
  | .eraseSkipLockFailed => 2#8
  | .generalError => 3#8
  | .controllerError => 4#8
  | .eccFailure => 5#8
  | .writeProtectViolation => 6#8
  | .invalidEraseSelection => 7#8
  | .outOfRange => 8#8
  | .unknown _ => 9#8
  | .ofR1 l => 16#8 + l.code

/-- The R2 label of a code; `Unknown` carries the raw word given and a delegated label is about its high byte. -/
def R2Label.ofCode (n : Nat) (hi lo : Byte) : Option R2Label :=
  match n with
  | 0 => some .ready
  | 1 => some .locked
  | 2 => some .eraseSkipLockFailed
  | 3 => some .generalError
  | 4 => some .controllerError
  | 5 => some .eccFailure
  | 6 => some .writeProtectViolation
  | 7 => some .invalidEraseSelection
  | 8 => some .outOfRange
  | 9 => some (.unknown (half hi lo))
  | n => if n < 16 then none else (R1Label.ofCode (n - 16) hi).map .ofR1

/-! ### The decoder -/

/-- The instruction at one port. -/
def decodeAt (p : Selector) (body : List Byte) : Except DecodeError Instr :=
  match p with
  | .hostReq => decodeHostReq body
  | .frame =>
    match decodeFrame body with
    | .ok f => .ok (.sendCommand f.index f.argHi f.argLo)
    | .error e => .error e
  | .command =>
    match decodeFrame body with
    | .ok f => commandOf f
    | .error e => .error e
  | .pollR1 =>
    match body with
    | [b] => if b = Config.idleByte then .ok .readR1 else .error .notTheMarker
    | _ => .error .bodyLength
  | .pollR2 =>
    match body with
    | [b] => if b = Config.idleByte then .ok .readR2 else .error .notTheMarker
    | _ => .error .bodyLength
  | .token =>
    match body with
    | [b] =>
      if b = Config.idleByte then .ok .idle
      else if b = Config.tokenStart then .ok .dataStartToken
      else .error .notTheMarker
    | _ => .error .bodyLength
  | .r1Value =>
    match body with
    | [b] =>
      if b = 0xFF#8 then .ok .r1NoResponse
      else if b = 0x00#8 then .ok .r1Ready
      else .error .notAnR1Value
    | _ => .error .bodyLength
  | .r1Arm =>
    match body with
    | [b] => .ok (decodeR1Arm b)
    | _ => .error .bodyLength
  | .classR1 =>
    match body with
    | [b] => .ok (.classifyR1 b)
    | _ => .error .bodyLength
  | .r2Arm =>
    match body with
    | [hi, lo] => .ok (decodeR2Arm hi lo)
    | _ => .error .bodyLength
  | .classR2 =>
    match body with
    | [hi, lo] => .ok (.classifyR2 (half hi lo))
    | _ => .error .bodyLength
  | .result => decodeResult body
  | .readBlock =>
    match body with
    | [] => .ok .rdblock
    | _ => .error .bodyLength
  | .writeBlock =>
    match body with
    | [] => .ok .wrblock
    | _ => .error .bodyLength
  | .diagR1 =>
    match body with
    | [c, raw] =>
      match R1Label.ofCode c.toNat raw with
      | some l => .ok (.diagR1Class l raw)
      | none => .error .diagLabel
    | _ => .error .bodyLength
  | .diagR2 =>
    match body with
    | [c, hi, lo] =>
      match R2Label.ofCode c.toNat hi lo with
      | some l => .ok (.diagR2Class l (half hi lo))
      | none => .error .diagLabel
    | _ => .error .bodyLength

/-- The instruction a request's bytes spell, or the reason they spell none. Total on every list of bytes. -/
def decode : List Byte → Except DecodeError Instr
  | [] => .error .empty
  | s :: body =>
    match Selector.ofByte s with
    | some p => decodeAt p body
    | none => .error .unknownSelector

/-! ### The encoder -/

/-- The port an instruction is presented at. -/
def Instr.selector : Instr → Selector
  | .sendCommand _ _ _ => .frame
  | .cmd0 => .command
  | .cmd1 => .command
  | .cmd13 => .command
  | .cmd17 _ => .command
  | .cmd24 _ => .command
  | .controlNoop _ => .hostReq
  | .initializeCard _ => .hostReq
  | .readSector _ => .hostReq
  | .writeSector _ => .hostReq
  | .controlQuerySectorCount _ => .hostReq
  | .hostReqReserved5 _ => .hostReq
  | .hostReqReserved6 _ => .hostReq
  | .hostReqReserved7 _ => .hostReq
  | .readR1 => .pollR1
  | .readR2 => .pollR2
  | .idle => .token
  | .dataStartToken => .token
  | .r1NoResponse => .r1Value
  | .r1Ready => .r1Value
  | .r1Initializing => .r1Arm
  | .r1EraseReset => .r1Arm
  | .r1IllegalCommand => .r1Arm
  | .r1CrcFailed => .r1Arm
  | .r1EraseSequenceError => .r1Arm
  | .r1AddressOutOfBounds => .r1Arm
  | .r1ArgumentOutOfBounds => .r1Arm
  | .r1Unknown _ => .r1Arm
  | .r2Ready => .r2Arm
  | .r2Locked => .r2Arm
  | .r2EraseSkipLockFailed => .r2Arm
  | .r2GeneralError => .r2Arm
  | .r2ControllerError => .r2Arm
  | .r2EccFailure => .r2Arm
  | .r2WriteProtectViolation => .r2Arm
  | .r2InvalidEraseSelection => .r2Arm
  | .r2OutOfRange => .r2Arm
  | .r2DelegateR1 _ _ => .r2Arm
  | .r2Unknown _ => .r2Arm
  | .resultOk _ => .result
  | .resultNoResponse _ => .result
  | .resultUnexpectedResetResponse _ => .result
  | .resultCardNotReady _ => .result
  | .resultStatusNotReady _ => .result
  | .resultProtocolError _ => .result
  | .resultFramingError _ => .result
  | .resultBusyTimeout _ => .result
  | .rdblock => .readBlock
  | .wrblock => .writeBlock
  | .diagR1Class _ _ => .diagR1
  | .diagR2Class _ _ => .diagR2
  | .classifyR1 _ => .classR1
  | .classifyR2 _ => .classR2

/-- The bytes of a 35-bit request word, five high zero bits in front (R98). -/
def hostReqBytes (op : BitVec 3) (addr : Addr) : List Byte := op.setWidth 8 :: addrBytes addr

/-- The bytes of a 20-bit result word, four high zero bits in front (R100). -/
def resultBytes (status : BitVec 4) (info : Half) : List Byte := [status.setWidth 8, info.high, info.low]

/-- An instruction's own bits as whole bytes, after the rows of spec/opcode_table.json. RDBLOCK and WRBLOCK have no
operand bits: their table entries are patterns of the bytes exchanged (R96, R97). -/
def Instr.body : Instr → List Byte
  | .sendCommand index argHi argLo => frameBytes index argHi argLo
  | .cmd0 => frameBytes 0#6 0#16 0#16
  | .cmd1 => frameBytes 1#6 0#16 0#16
  | .cmd13 => frameBytes 13#6 0#16 0#16
  | .cmd17 addr => frameBytes 17#6 (offsetHi addr) (offsetLo addr)
  | .cmd24 addr => frameBytes 24#6 (offsetHi addr) (offsetLo addr)
  | .controlNoop ignored => hostReqBytes 0#3 ignored
  | .initializeCard ignored => hostReqBytes 1#3 ignored
  | .readSector addr => hostReqBytes 2#3 addr
  | .writeSector addr => hostReqBytes 3#3 addr
  | .controlQuerySectorCount ignored => hostReqBytes 4#3 ignored
  | .hostReqReserved5 ignored => hostReqBytes 5#3 ignored
  | .hostReqReserved6 ignored => hostReqBytes 6#3 ignored
  | .hostReqReserved7 ignored => hostReqBytes 7#3 ignored
  | .readR1 => [0xFF#8]
  | .readR2 => [0xFF#8]
  | .idle => [0xFF#8]
  | .dataStartToken => [0xFE#8]
  | .r1NoResponse => [0xFF#8]
  | .r1Ready => [0x00#8]
  | .r1Initializing => [0x01#8]
  | .r1EraseReset => [0x02#8]
  | .r1IllegalCommand => [0x04#8]
  | .r1CrcFailed => [0x08#8]
  | .r1EraseSequenceError => [0x10#8]
  | .r1AddressOutOfBounds => [0x20#8]
  | .r1ArgumentOutOfBounds => [0x40#8]
  | .r1Unknown raw => [raw]
  | .r2Ready => [0x00#8, 0x00#8]
  | .r2Locked => [0x00#8, 0x01#8]
  | .r2EraseSkipLockFailed => [0x00#8, 0x02#8]
  | .r2GeneralError => [0x00#8, 0x04#8]
  | .r2ControllerError => [0x00#8, 0x08#8]
  | .r2EccFailure => [0x00#8, 0x10#8]
  | .r2WriteProtectViolation => [0x00#8, 0x20#8]
  | .r2InvalidEraseSelection => [0x00#8, 0x40#8]
  | .r2OutOfRange => [0x00#8, 0x80#8]
  | .r2DelegateR1 high low => [high, low]
  | .r2Unknown low => [0x00#8, low]
  | .resultOk info => resultBytes 0#4 info
  | .resultNoResponse info => resultBytes 1#4 info
  | .resultUnexpectedResetResponse info => resultBytes 2#4 info
  | .resultCardNotReady info => resultBytes 3#4 info
  | .resultStatusNotReady info => resultBytes 4#4 info
  | .resultProtocolError info => resultBytes 5#4 info
  | .resultFramingError info => resultBytes 6#4 info
  | .resultBusyTimeout info => resultBytes 7#4 info
  | .rdblock => []
  | .wrblock => []
  | .diagR1Class label raw => [label.code, raw]
  | .diagR2Class label raw => [label.code, raw.high, raw.low]
  | .classifyR1 b => [b]
  | .classifyR2 w => [w.high, w.low]

/-- The bytes of the request that presents an instruction. -/
def encode (i : Instr) : List Byte := i.selector.code :: i.body

/-! ### The opcode table's words -/

/-- Whether a 64-bit frame word has index 0, 1 or 13 with zero arguments, or 17 or 24 with nine low zero offset bits:
such a word is also the row of the command it is, and that more specific row is the one answered (log entry 7). -/
def isNamedCommandWord (w : Nat) : Bool :=
  match decodeFrame (bytesOf 8 w) with
  | .ok f => (commandOf f).toBool
  | .error _ => false

/-- The port the model presents a word of the opcode table at, by its width in whole bytes. Where the table gives several
rows the same word, one of them is chosen: IDLE for an 8-bit `FF`, R1_READY for `00`, the classifier's arm for any other
response byte or word. DESIGN CHOICE, log entry 7. -/
def tableSelector (nbits w : Nat) : Option Selector :=
  match nbits with
  | 64 => some (if isNamedCommandWord w then .command else .frame)
  | 40 => some .hostReq
  | 24 => some .result
  | 16 => some .r2Arm
  | 8 => some (if w % 256 = 0xFF ∨ w % 256 = 0xFE then .token else if w % 256 = 0 then .r1Value else .r1Arm)
  | _ => none

/-- The request bytes of a word of the opcode table: bit 0 of the number is the least significant bit, and the most
significant byte goes first (R58, R81, R98). -/
def tableBytes (nbits w : Nat) : List Byte :=
  match tableSelector nbits w with
  | some p => p.code :: bytesOf (nbits / 8) w
  | none => []

/-- The instruction the decoder reads from a word of spec/opcode_table.json. -/
def decodeTableWord (nbits w : Nat) : Option Instr :=
  match decode (tableBytes nbits w) with
  | .ok i => some i
  | .error _ => none

end Sys2Proof
end

