-- ==== Sys2Proof/Machine/State.lean ====
section
/-! DEFINITION. The state of the machine: every register of 10_state.md R24 to R30, the two histories of R33, the caller's
buffer (R51), and beside them what stands outside the block but decides its next step: the transport's answers (R34, R35),
the pending moves of the host (R269), and the return port of an internal procedure run on its own (R87). Plain data. -/

namespace Sys2Proof.Machine

/-- The failures of INITIALIZE (R99). `code` is the raw value; its class is a function of it (`Failure.rawClass`). -/
inductive InitFailure where
  | noResponse
  | unexpectedResetResponse (code : Byte)
  | cardNotReady (code : Byte)
  | statusNotReady (code : Half)
  deriving DecidableEq, Repr

/-- The failures of the sector operations (R100). -/
inductive IoFailure where
  | protocolError (raw : Byte)
  | framingError
  | busyTimeout
  deriving DecidableEq, Repr

/-- Every failure the block reports (R251). -/
inductive Failure where
  | init (f : InitFailure)
  | io (f : IoFailure)
  deriving DecidableEq, Repr

/-- `RESULT` (R29): no operation has ended since reset, or the outcome of the last one. `Ok(())` is `ok 0` (R100). -/
inductive Result where
  | none
  | ok (value : Half)
  | err (f : Failure)
  deriving DecidableEq, Repr

/-- `INIT_STATE` (R28, R175). -/
inductive InitState where
  | powerOn
  | resetWait
  | opCondWait
  | statusCheck
  | ready
  | failed (reason : InitFailure)
  deriving DecidableEq, Repr

/-- `PHASE` (R27): the sequencer's position. -/
inductive Phase where
  | idle
  | iXportInit | iResetCmd | iResetResp | iOpCondCmd | iOpCondResp | iStatusCmd | iStatusHi | iStatusLo
  | rCmd | rAck | rToken | rData | rCrc
  | wCmd | wAck | wToken | wData | wCrc | wResp | wBusy
  deriving DecidableEq, Repr

/-- `WRITE_ACK_MODE` (R30). -/
inductive AckMode where
  | permissive
  | strict
  deriving DecidableEq, Repr

/-- One element of the trace `T` (R33): an `XportInit()`, or an `Xchg(o)` that returned `i`. -/
inductive Transaction where
  | init
  | xchg (o i : Byte)
  deriving DecidableEq, Repr

/-- One diagnostic event (R101). -/
inductive DiagEvent where
  | r1Class (label : R1Label) (raw : Byte)
  | r2Class (label : R2Label) (raw : Half)
  deriving DecidableEq, Repr

/-- What the last procedure that was run on its own returned to its caller (R140, R144, R156, R158). The model's own
field, log entry 10. -/
inductive Returned where
  | nothing
  | byte (b : Byte)
  | word (w : Half)
  | r1Label (l : R1Label)
  | r2Label (l : R2Label)
  deriving DecidableEq, Repr

/-- What the transport does once its listed answers are used up: any byte at all, one byte for ever, or a transaction
that never completes (R261, R262). Log entries 1 and 2. -/
inductive Line where
  | free
  | constant (b : Byte)
  | hung
  deriving DecidableEq, Repr

/-- The transport with the card behind it. Outside the block; no rule constrains it (R34, R35, U1). -/
structure Transport where
  /-- the answers to the next exchanges, first one first -/
  script : List Byte
  /-- what the exchanges after them do -/
  after : Line
  /-- how many more `XportInit()` complete before one never does; `none`: all of them. Each of the two operations can fail to
  complete on its own (R261, R262; log entry 1) -/
  inits : Option Nat
  deriving DecidableEq, Repr

/-- A move of the host at the HOST interface (R269), the block's reset (R290, R292), or the host making no move for a while.
One is made in each step (log entry 6). -/
inductive HostMove where
  /-- presents a request: a selector byte and the request's bits (R98; log entry 7) -/
  | request (bytes : List Byte)
  /-- writes `WRITE_ACK_MODE` (R30) -/
  | setWriteAckMode (mode : AckMode)
  /-- writes `BUSY_BOUND` (R30) -/
  | setBusyBound (bound : Option Nat)
  /-- the host writes one byte of its own buffer between operations (R51, R67) -/
  | storeBuffer (index : Fin 512) (value : Byte)
  /-- waits until no operation is in progress (R67, R267) -/
  | await
  /-- makes no move in this step and in `n` more -/
  | pause (n : Nat)
  /-- the block is reset, whether it is busy or not (R290, R292); `line` is the transport after a reset that stops an
  operation, which no rule constrains (D25; log entry 18) -/
  | reset (line : Transport)
  deriving DecidableEq, Repr

/-- The caller's buffer as (index, byte) pairs in canonical form (Memory.wf). -/
abbrev Memory := List Host.Cell

/-- The machine. -/
@[ext]
structure State where
  /-- `BUSY` (1 bit, R29) -/
  busy : Bool
  /-- `PHASE` (R27) -/
  phase : Phase
  /-- `OP` (3 bits, R24) -/
  op : BitVec 3
  /-- `ADDR` (32 bits, R24) -/
  addr : BitVec 32
  /-- `IDXCMD` (6 bits, R24) -/
  idxCmd : BitVec 6
  /-- `ARG_HI` (16 bits, R24) -/
  argHi : BitVec 16
  /-- `ARG_LO` (16 bits, R24) -/
  argLo : BitVec 16
  /-- `CNT` (16 bits, more when BUSY_BOUND is more than 65535, R25): a count with no upper limit, log entry 17 -/
  cnt : Nat
  /-- `POLL` (4 bits, R25) -/
  poll : BitVec 4
  /-- `BYTE` (10 bits, R25) -/
  byte : BitVec 10
  /-- `R1` (8 bits, R26) -/
  r1 : BitVec 8
  /-- `R2` (16 bits, R26) -/
  r2 : BitVec 16
  /-- `ACK` (8 bits, R26) -/
  ack : BitVec 8
  /-- `TOK` (8 bits, R26) -/
  tok : BitVec 8
  /-- `INIT_STATE` (R28) -/
  initState : InitState
  /-- `RESULT` (R29) -/
  result : Result
  /-- `WRITE_ACK_MODE` (1 bit, R30) -/
  writeAckMode : AckMode
  /-- `BUSY_BOUND` (none or a positive integer, R30) -/
  busyBound : Option Nat
  /-- `BUF`, the caller's 512-byte Sector Buffer (R50, R51) -/
  buf : Memory
  /-- `T`, newest first (R33) -/
  trace : List Transaction
  /-- `G`, newest first (R33) -/
  diag : List DiagEvent
  /-- whether a diagnostic sink is attached (R162) -/
  sink : Bool
  /-- the transport (R34) -/
  xport : Transport
  /-- how many free values have been drawn; the model's own counter, log entries 1 and 3 -/
  draws : Nat
  /-- the return port of a procedure run on its own; the model's own field, log entry 10 -/
  returned : Returned
  /-- the host's pending moves, first one first; the model's own field, log entry 6 -/
  host : List HostMove
  deriving DecidableEq, Repr

/-- How the machine can stop. -/
inductive Fault where
  /-- Raised by `xchg` and `xportInit`: the transport never completes the transaction, so no later step exists (R262,
  "stuck"). Safe: nothing can be proved past it. -/
  | transportNeverCompletes
  /-- Raised by `memRead` and `memWrite`: an index outside 0 to 511, which the buffer space does not have (R51, R64). No
  reachable state raises it (Safety.lean). Safe. -/
  | bufferIndex
  deriving DecidableEq, Repr

/-- What the machine does not take. -/
inductive Refusal where
  /-- Raised by exec's arms that have no meaning yet: none in this model. Safe. -/
  | notModelled (mnemonic : String)
  /-- Raised by the step when the host's request is no instruction's bytes (log entry 28). Safe. -/
  | undecoded (e : DecodeError)
  /-- Raised by the step when the host writes its buffer while an operation runs: the host is assumed never to, and a model
  gives it no step (R67; log entry 20). Safe. -/
  | bufferInUse
  /-- Raised by the step when the host writes 0 to BUSY_BOUND, which is "none or a positive integer" (R30; log entry 24).
  Safe. -/
  | busyBoundZero
  deriving DecidableEq, Repr

/-- The machine right after reset (R36, R290): the values R36 gives; every working register 0, a DESIGN CHOICE because R36
leaves them unspecified (log entry 4, unsafe); the fields outside the block at the values of log entries 1, 3, 6, 10, 15,
16. -/
def State.reset : State :=
  { busy := false, phase := .idle, op := 0#3, addr := 0#32, idxCmd := 0#6, argHi := 0#16, argLo := 0#16, cnt := 0
    poll := 0#4, byte := 0#10, r1 := 0#8, r2 := 0#16, ack := 0#8, tok := 0#8, initState := .powerOn, result := .none
    writeAckMode := .permissive, busyBound := none, buf := [], trace := [], diag := [], sink := true
    xport := { script := [], after := .free, inits := none }, draws := 0, returned := .nothing, host := [] }

end Sys2Proof.Machine
end

