-- ==== Sys2Proof/Machine/Flags.lean ====
section
/-! DEFINITION. The bits of the card's responses: the R1 flags (30_encoding.md R90), the composition of R2 (R94), and the Error
Classifier's two pure functions (42_error_classifier.md R156, R158). The block has no flags of its own (10_state.md R31). -/

namespace Sys2Proof.Machine

/-- Bit `n` of an R1 byte: the flag of mask `2^n` (R90). -/
def r1Flag (n : Nat) (b : Byte) : Bool := b.getLsbD n

/-- `R2 = (high << 8) | low` (R94, R144). -/
def composeR2 (high low : Byte) : Half := (high.setWidth 16 <<< 8) ||| low.setWidth 16

/-- CLASSIFY_R1: equality of the whole byte with one of the seven single-bit values, otherwise `Unknown` (R156, R157). -/
def classR1 (b : Byte) : R1Label :=
  if b = 0x01#8 then .initializing
  else if b = 0x02#8 then .eraseReset
  else if b = 0x04#8 then .illegalCommand
  else if b = 0x08#8 then .crcFailed
  else if b = 0x10#8 then .eraseSequenceError
  else if b = 0x20#8 then .addressOutOfBounds
  else if b = 0x40#8 then .argumentOutOfBounds
  else .unknown b

/-- CLASSIFY_R2 over a table: equality of the whole word with an entry, then delegation to the high byte, then `Unknown`
(R158, R160). -/
def classR2With (t : Config.R2Table) (w : Half) : R2Label :=
  if w = t.ready then .ready
  else if w = t.locked then .locked
  else if w = t.eraseSkipLockFailed then .eraseSkipLockFailed
  else if w = t.generalError then .generalError
  else if w = t.controllerError then .controllerError
  else if w = t.eccFailure then .eccFailure
  else if w = t.writeProtectViolation then .writeProtectViolation
  else if w = t.invalidEraseSelection then .invalidEraseSelection
  else if w = t.outOfRange then .outOfRange
  else if w.high ≠ 0x00#8 then .ofR1 (classR1 w.high)
  else .unknown w

/-- CLASSIFY_R2 with the model's R2_TABLE (R158, R159). -/
def classR2 (w : Half) : R2Label := classR2With Config.r2Table w

/-- The class that accompanies a failure's raw value (R99, R251): a function of the raw value. -/
def Failure.rawClass : Failure → Option R2Label
  | .init .noResponse => none
  | .init (.unexpectedResetResponse code) => some (.ofR1 (classR1 code))
  | .init (.cardNotReady code) => some (.ofR1 (classR1 code))
  | .init (.statusNotReady code) => some (classR2 code)
  | .io (.protocolError raw) => some (.ofR1 (classR1 raw))
  | .io .framingError => none
  | .io .busyTimeout => none

end Sys2Proof.Machine
end

