-- ==== Sys2Proof/Machine/Memory.lean ====
section
/-! DEFINITION. The caller's Sector Buffer (20_memory.md R51, R64): indices 0 to 511, one byte each, as a canonical list of
pairs with rising indices and no entry equal to what an unlisted index reads as. -/

namespace Sys2Proof.Machine

/-- What an index nothing has written reads as. The spec gives the caller's buffer no content of its own (R35): DESIGN CHOICE,
log entry 16, unsafe. -/
def Memory.unlisted : Byte := 0x00#8

/-- The byte at an index. -/
def Memory.read : Memory → Nat → Byte
  | [], _ => Memory.unlisted
  | (k, v) :: m, a => if k = a then v else Memory.read m a

/-- Writes one byte, keeping the canonical form. -/
def Memory.write : Memory → Nat → Byte → Memory
  | [], a, v => if v = Memory.unlisted then [] else [(a, v)]
  | (k, w) :: m, a, v =>
    if a < k then (if v = Memory.unlisted then (k, w) :: m else (a, v) :: (k, w) :: m)
    else if a = k then (if v = Memory.unlisted then m else (a, v) :: m)
    else (k, w) :: Memory.write m a v

/-- The canonical form from an index on. -/
def Memory.wfFrom : Nat → Memory → Bool
  | _, [] => true
  | lo, (k, v) :: m => decide (lo ≤ k) && decide (k < 512) && decide (v ≠ Memory.unlisted) && Memory.wfFrom (k + 1) m

/-- The canonical form: indices strictly rising and below 512, no entry equal to what an unlisted index reads as. -/
def Memory.wf (m : Memory) : Bool := Memory.wfFrom 0 m

/-- The 512 bytes of the buffer, index 0 first. -/
def Memory.bytes (m : Memory) : List Byte := (List.range 512).map fun i => Memory.read m i

end Sys2Proof.Machine
end

