-- ==== Sys2Proof/Machine/Operands.lean ====
section
/-! DEFINITION. Operand assembly: the byte of a command frame a counter selects (40_command_framer.md R120), and the arguments of
the two sector commands (30_encoding.md R86). The byte offset itself is in Decode.lean, beside the frame's encoding. -/

namespace Sys2Proof.Machine

/-- Byte `n` (from 0) of the frame held in `IDXCMD`, `ARG_HI`, `ARG_LO` (R120). Beyond the eighth byte, where no run comes,
the idle byte. -/
def State.frameByte (s : State) (n : Nat) : Byte :=
  (frameBytes s.idxCmd s.argHi s.argLo).getD n Config.idleByte

/-- The 3-bit code of the operation a phase belongs to (R27, R98). -/
def Phase.opCode : Phase → Option (BitVec 3)
  | .idle => none
  | .iXportInit | .iResetCmd | .iResetResp | .iOpCondCmd | .iOpCondResp | .iStatusCmd | .iStatusHi | .iStatusLo =>
    some 1#3
  | .rCmd | .rAck | .rToken | .rData | .rCrc => some 2#3
  | .wCmd | .wAck | .wToken | .wData | .wCrc | .wResp | .wBusy => some 3#3

/-- The bit code of `WRITE_ACK_MODE` (R30): 0 permissive, 1 strict. -/
def AckMode.code : AckMode → BitVec 1
  | .permissive => 0#1
  | .strict => 1#1

end Sys2Proof.Machine
end

