-- ==== Sys2Proof/Machine/Ops.lean ====
section
/-! DEFINITION. The shared operations, one for each pseudocode primitive of 00_scope.md R11: `Xchg`, `XportInit`, `MemRead`,
`MemWrite`, `Diag`, `return`, `raise`. A failure is the only thing like an exception the block has (60_exceptions.md R250):
`raise` is its one entry, and there is no return from one (R258). -/

namespace Sys2Proof.Machine

/-- The outcome of one step. -/
abbrev Out := Host.Outcome State Fault Refusal

/-! ### The transport (R261, R270) -/

/-- The transport's answer to its `k`-th exchange from now, `none` if that exchange never completes (R261, R262). -/
def State.answerAt (s : State) (k : Nat) : Option Byte :=
  match s.xport.script[k]? with
  | some b => some b
  | none =>
    match s.xport.after with
    | .free => some (Config.freeAnswer (s.draws + (k - s.xport.script.length)))
    | .constant b => some b
    | .hung => none

/-- One answer is used up: none is given twice (R62). -/
def State.consume (s : State) : State :=
  match s.xport.script with
  | _ :: rest => { s with xport := { s.xport with script := rest } }
  | [] =>
    match s.xport.after with
    | .free => { s with draws := s.draws + 1 }
    | .constant _ => s
    | .hung => s

/-- An element is appended to the trace `T` (R33). -/
def State.record (s : State) (e : Transaction) : State := { s with trace := e :: s.trace }

/-- `Xchg(o)`: sends `o`, goes on with the byte the transport answers, and appends the pair to `T` (R11). A transaction that
never completes leaves no later step (R262). -/
def xchg (o : Byte) (s : State) (k : Byte → State → Out) : Out :=
  match s.answerAt 0 with
  | some i => k i (s.consume.record (.xchg o i))
  | none => .fault .transportNeverCompletes

/-- One `XportInit()` has completed. What the transport answers afterwards is whatever its list says (R177, R297, U19). -/
def State.countInit (s : State) : State :=
  { s with xport := { s.xport with inits := s.xport.inits.map fun n => n - 1 } }

/-- `XportInit()`: returns nothing, appends `init` to `T`, cannot fail (R11, R177); it may never complete, whether or not the
exchanges after it would (R261, R262). -/
def xportInit (s : State) (k : State → Out) : Out :=
  if s.xport.inits = some 0 then .fault .transportNeverCompletes else k (s.countInit.record .init)

/-! ### The buffer (R11, R51) -/

/-- `MemRead(i, 1)`. -/
def memRead (i : Nat) (s : State) (k : Byte → State → Out) : Out :=
  if i < Config.sectorSize then k (Memory.read s.buf i) s else .fault .bufferIndex

/-- `MemWrite(i, 1, v)`. -/
def memWrite (i : Nat) (v : Byte) (s : State) (k : State → Out) : Out :=
  if i < Config.sectorSize then k { s with buf := Memory.write s.buf i v } else .fault .bufferIndex

/-! ### Diagnostics (R11, R162) -/

/-- `Diag(e)`: delivered to the sink if one is attached; it always completes and changes nothing else (R162, R257). -/
def State.report (s : State) (e : DiagEvent) : State := if s.sink then { s with diag := e :: s.diag } else s

/-- `Diag(R1Class(CLASSIFY_R1(b), b))` (R161). -/
def State.reportR1 (s : State) (b : Byte) : State := s.report (.r1Class (classR1 b) b)

/-- `Diag(R2Class(CLASSIFY_R2(w), w))` (R161). -/
def State.reportR2 (s : State) (w : Half) : State := s.report (.r2Class (classR2 w) w)

/-! ### The end of an operation (R11, R29, R256) -/

/-- The operation ends with an outcome: `RESULT` is written, `PHASE` is `Idle`, `BUSY` falls (R29). -/
def State.finish (s : State) (r : Result) : State := { s with result := r, phase := .idle, busy := false }

/-- `return Ok(v)` (R11). -/
def State.succeed (s : State) (v : Half) : State := s.finish (.ok v)

/-- `raise F(info)`: `RESULT <- Err(F(info))`, for INITIALIZE's failures also `INIT_STATE <- Failed(F(info))`,
`PHASE <- Idle`, `BUSY <- 0`, and nothing else changes (R256). -/
def State.raise (s : State) (f : Failure) : State :=
  { s.finish (.err f) with
    initState := match f with
      | .init g => .failed g
      | .io _ => s.initState }

/-! ### Entering a phase: each counter is set to its start value when its loop is entered (R268) -/

/-- The first line of SEND_COMMAND, in a phase that sends a frame: the frame latches are written and `BYTE` starts (R120). -/
def State.latchFrame (s : State) (index : BitVec 6) (argHi argLo : Half) : State :=
  { s with idxCmd := index, argHi := argHi, argLo := argLo, byte := 0#10 }

/-- The sequencer moves to a phase that sends a frame. -/
def State.enterFrame (s : State) (p : Phase) (index : BitVec 6) (argHi argLo : Half) : State :=
  { s.latchFrame index argHi argLo with phase := p }

/-- The sequencer moves to a phase that polls for a response: `POLL <- 0` (R140). -/
def State.enterPoll (s : State) (p : Phase) : State := { s with phase := p, poll := 0#4 }

/-- The sequencer moves to a phase that counts bytes of a payload or checksum. -/
def State.enterBytes (s : State) (p : Phase) : State := { s with phase := p, byte := 0#10 }

/-- The sequencer moves to a phase that counts polls: `CNT <- 0` (R200, R220). -/
def State.enterCount (s : State) (p : Phase) : State := { s with phase := p, cnt := 0 }

/-! ### One transaction of a frame, a poll or a fixed run of idle bytes -/

/-- One byte of SEND_COMMAND: byte `BYTE` of the frame is sent, its answer is discarded, `BYTE` counts (R120, R84). After the
eighth byte it goes on with `done`, otherwise with `more`. -/
def frameStep (s : State) (done more : State → Out) : Out :=
  xchg (s.frameByte s.byte.toNat) s fun _ t =>
    let u := { t with byte := t.byte + 1#10 }
    if u.byte = 8#10 then done u else more u

/-- One poll of READ_R1: an idle byte is exchanged and `POLL` counts; at the first answer that is not `0xFF`, or at the
eighth, `R1` takes the answer and it goes on with `done`, otherwise with `more` (R140). -/
def pollStep (s : State) (done : Byte → State → Out) (more : State → Out) : Out :=
  xchg Config.idleByte s fun r t =>
    let u := { t with poll := t.poll + 1#4 }
    if r ≠ Config.idleByte ∨ u.poll = 8#4 then done r { u with r1 := r } else more u

/-- One of the two checksum exchanges after a payload: `0xFF` is sent, the answer is discarded, `BYTE` counts (R208, R226). -/
def checksumStep (s : State) (done more : State → Out) : Out :=
  xchg Config.crcFill s fun _ t =>
    let u := { t with byte := t.byte + 1#10 }
    if u.byte = 2#10 then done u else more u

end Sys2Proof.Machine
end

