-- ==== Sys2Proof/Machine/Classifier.lean ====
section
/-! DEFINITION. The Error Classifier (42_error_classifier.md): CLASSIFY_R1 and CLASSIFY_R2 as procedures, and each of their arms on
the value the opcode table gives it. It makes no transaction and writes no register (R155): the label is all it returns (log
entry 11). -/

namespace Sys2Proof.Machine

/-- A label of CLASSIFY_R1 is returned to the caller, and nothing else changes (R155). -/
def State.returnR1Label (s : State) (l : R1Label) : State := { s with returned := .r1Label l }

/-- A label of CLASSIFY_R2 is returned to the caller, and nothing else changes (R155). -/
def State.returnR2Label (s : State) (l : R2Label) : State := { s with returned := .r2Label l }

/-- CLASSIFY_R1 of any byte (R156). -/
def execClassifyR1 (b : Byte) (s : State) : Out := .next (s.returnR1Label (classR1 b))

/-- CLASSIFY_R2 of any word (R158). -/
def execClassifyR2 (w : Half) (s : State) : Out := .next (s.returnR2Label (classR2 w))

/-- R1_INITIALIZING: the classifier on the response `0x01` (R156). -/
def execR1Initializing (s : State) : Out := .next (s.returnR1Label (classR1 0x01#8))

/-- R1_ERASE_RESET: the classifier on the response `0x02` (R156). -/
def execR1EraseReset (s : State) : Out := .next (s.returnR1Label (classR1 0x02#8))

/-- R1_ILLEGAL_COMMAND: the classifier on the response `0x04` (R156). -/
def execR1IllegalCommand (s : State) : Out := .next (s.returnR1Label (classR1 0x04#8))

/-- R1_CRC_FAILED: the classifier on the response `0x08` (R156). -/
def execR1CrcFailed (s : State) : Out := .next (s.returnR1Label (classR1 0x08#8))

/-- R1_ERASE_SEQUENCE_ERROR: the classifier on the response `0x10` (R156). -/
def execR1EraseSequenceError (s : State) : Out := .next (s.returnR1Label (classR1 0x10#8))

/-- R1_ADDRESS_OUT_OF_BOUNDS: the classifier on the response `0x20` (R156). -/
def execR1AddressOutOfBounds (s : State) : Out := .next (s.returnR1Label (classR1 0x20#8))

/-- R1_ARGUMENT_OUT_OF_BOUNDS: the classifier on the response `0x40` (R156). -/
def execR1ArgumentOutOfBounds (s : State) : Out := .next (s.returnR1Label (classR1 0x40#8))

/-- R1_UNKNOWN: the classifier on a response that is no single-bit value (R156). -/
def execR1Unknown (raw : Byte) (s : State) : Out := .next (s.returnR1Label (classR1 raw))

/-- R2_READY: the classifier on the response `0x0000` (R158). -/
def execR2Ready (s : State) : Out := .next (s.returnR2Label (classR2 0x0000#16))

/-- R2_LOCKED: the classifier on the response `0x0001` (R158). -/
def execR2Locked (s : State) : Out := .next (s.returnR2Label (classR2 0x0001#16))

/-- R2_ERASE_SKIP_LOCK_FAILED: the classifier on the response `0x0002` (R158). -/
def execR2EraseSkipLockFailed (s : State) : Out := .next (s.returnR2Label (classR2 0x0002#16))

/-- R2_GENERAL_ERROR: the classifier on the response `0x0004` (R158). -/
def execR2GeneralError (s : State) : Out := .next (s.returnR2Label (classR2 0x0004#16))

/-- R2_CONTROLLER_ERROR: the classifier on the response `0x0008` (R158). -/
def execR2ControllerError (s : State) : Out := .next (s.returnR2Label (classR2 0x0008#16))

/-- R2_ECC_FAILURE: the classifier on the response `0x0010` (R158). -/
def execR2EccFailure (s : State) : Out := .next (s.returnR2Label (classR2 0x0010#16))

/-- R2_WRITE_PROTECT_VIOLATION: the classifier on the response `0x0020` (R158). -/
def execR2WriteProtectViolation (s : State) : Out := .next (s.returnR2Label (classR2 0x0020#16))

/-- R2_INVALID_ERASE_SELECTION: the classifier on the response `0x0040` (R158). -/
def execR2InvalidEraseSelection (s : State) : Out := .next (s.returnR2Label (classR2 0x0040#16))

/-- R2_OUT_OF_RANGE: the classifier on the response `0x0080` (R158). -/
def execR2OutOfRange (s : State) : Out := .next (s.returnR2Label (classR2 0x0080#16))

/-- R2_DELEGATE_R1: the classifier on a word outside the table with a high byte that is not zero (R158). -/
def execR2DelegateR1 (high low : Byte) (s : State) : Out := .next (s.returnR2Label (classR2 (half high low)))

/-- R2_UNKNOWN: the classifier on a word outside the table with a zero high byte (R158). -/
def execR2Unknown (low : Byte) (s : State) : Out := .next (s.returnR2Label (classR2 (half 0x00#8 low)))

end Sys2Proof.Machine
end

