-- ==== Sys2Proof/Machine/Initialization.lean ====
section
/-! DEFINITION. The Initialization State Machine (43_initialization.md R176): one definition per phase of INITIALIZE
(10_state.md R27), each making the phase's next transaction. The assignments up to the next transaction happen with the one
before it (log entry 5). -/

namespace Sys2Proof.Machine

/-- One attempt of stage 1 begins: CMD0 with zero arguments (R178). -/
def State.beginReset (s : State) : State := s.enterFrame .iResetCmd Config.idxGoIdle 0#16 0#16

/-- One attempt of stage 2 begins: CMD1 with zero arguments (R181). -/
def State.beginOpCond (s : State) : State := s.enterFrame .iOpCondCmd Config.idxOpCond 0#16 0#16

/-- Stage 3 begins: CMD13 with zero arguments (R184). -/
def State.beginStatus (s : State) : State := s.enterFrame .iStatusCmd Config.idxStatus 0#16 0#16

/-- `I_XportInit`: one `XportInit()`, then `INIT_STATE <- ResetWait` and stage 1 with a fresh count (R177). -/
def stepXportInit (s : State) : Out :=
  xportInit s fun t => .next { t with initState := .resetWait, cnt := 0 }.beginReset

/-- `I_ResetCmd`: one byte of the frame (R178). -/
def stepResetCmd (s : State) : Out := frameStep s (fun t => .next (t.enterPoll .iResetResp)) .next

/-- The end of one attempt of stage 1 with response `r`: stage 2 at `0x01`, a failure after 512 attempts, otherwise the
next attempt (R178, R179, R180). -/
def resetAttempt (r : Byte) (s : State) : State :=
  let t := { s with cnt := s.cnt + 1 }
  if r = Config.r1InIdle then { t with initState := .opCondWait, cnt := 0 }.beginOpCond
  else if t.cnt = Config.nReset then
    if r = Config.idleByte then t.raise (.init .noResponse)
    else (t.reportR1 r).raise (.init (.unexpectedResetResponse r))
  else t.beginReset

/-- `I_ResetResp`: one poll of READ_R1 (R178). -/
def stepResetResp (s : State) : Out := pollStep s (fun r t => .next (resetAttempt r t)) .next

/-- `I_OpCondCmd`: one byte of the frame (R181). -/
def stepOpCondCmd (s : State) : Out := frameStep s (fun t => .next (t.enterPoll .iOpCondResp)) .next

/-- The end of one attempt of stage 2 with response `r`: stage 3 at `0x00`; for every other value one diagnostic event, and
then a failure after 32000 attempts or the next attempt (R181, R182, R183). -/
def opCondAttempt (r : Byte) (s : State) : State :=
  let t := { s with cnt := s.cnt + 1 }
  if r = Config.r1Ready then { t with initState := .statusCheck }.beginStatus
  else
    let u := t.reportR1 r
    if u.cnt = Config.nOpCond then u.raise (.init (.cardNotReady r)) else u.beginOpCond

/-- `I_OpCondResp`: one poll of READ_R1 (R181). -/
def stepOpCondResp (s : State) : Out := pollStep s (fun r t => .next (opCondAttempt r t)) .next

/-- `I_StatusCmd`: one byte of the frame (R184). -/
def stepStatusCmd (s : State) : Out := frameStep s (fun t => .next (t.enterPoll .iStatusHi)) .next

/-- `I_StatusHi`: one poll for the high byte of R2, which `R1` holds (R144, R184). -/
def stepStatusHi (s : State) : Out := pollStep s (fun _ t => .next { t with phase := .iStatusLo }) .next

/-- The status check: `Ready` if R2 is `0x0000`, otherwise one diagnostic event and the failure (R184, R185). -/
def statusCheck (w : Half) (s : State) : State :=
  if w = 0x0000#16 then { s with initState := .ready }.succeed 0#16
  else (s.reportR2 w).raise (.init (.statusNotReady w))

/-- `I_StatusLo`: the one exchange for the low byte of R2, then the status check (R144, R184). -/
def stepStatusLo (s : State) : Out :=
  xchg Config.idleByte s fun low t =>
    .next (statusCheck (composeR2 t.r1 low) { t with r2 := composeR2 t.r1 low })

end Sys2Proof.Machine
end

