-- ==== Sys2Proof/Machine/Results.lean ====
section
/-! DEFINITION. The result words (30_encoding.md R99, R100): the word of a `RESULT`, and the end of the operation in progress with
each result, `return Ok(v)` or `raise F(info)` (00_scope.md R11, 60_exceptions.md R256; log entry 13). -/

namespace Sys2Proof.Machine

/-- The 4-bit `status` and 16-bit `info` of a failure (R100, R251). -/
def Failure.word : Failure → BitVec 4 × Half
  | .init .noResponse => (1#4, 0x00FF#16)
  | .init (.unexpectedResetResponse code) => (2#4, code.setWidth 16)
  | .init (.cardNotReady code) => (3#4, code.setWidth 16)
  | .init (.statusNotReady code) => (4#4, code)
  | .io (.protocolError raw) => (5#4, raw.setWidth 16)
  | .io .framingError => (6#4, 0x00FF#16)
  | .io .busyTimeout => (7#4, 0x0000#16)

/-- The word of `RESULT` the host reads (R100): none before an operation has ended. -/
def Result.word : Result → Option (BitVec 4 × Half)
  | .none => Option.none
  | .ok v => some (0#4, v)
  | .err f => some f.word

/-- Whether the operation in progress can end with a result where it is: BUSY is 1, and the pseudocode of the phase has that
`return` or `raise` (R176, R200, R220, R240), with a value that reaches it. -/
def State.canEnd (s : State) (r : Result) : Bool :=
  s.busy && match r with
    | .none => false
    | .ok v =>
      decide (s.phase = .idle ∧ (s.op = 0#3 ∨ s.op = 4#3)) ||
        decide (v = 0#16 ∧ (s.phase = .iStatusLo ∨ s.phase = .rCrc ∨ s.phase = .wBusy))
    | .err (.init .noResponse) => decide (s.phase = .iResetResp)
    | .err (.init (.unexpectedResetResponse code)) =>
      decide (s.phase = .iResetResp ∧ code ≠ 0x01#8 ∧ code ≠ 0xFF#8)
    | .err (.init (.cardNotReady code)) => decide (s.phase = .iOpCondResp ∧ code ≠ 0x00#8)
    | .err (.init (.statusNotReady code)) => decide (s.phase = .iStatusLo ∧ code ≠ 0x0000#16)
    | .err (.io (.protocolError raw)) =>
      decide (s.phase = .rToken ∨ (s.phase = .wAck ∧ s.writeAckMode = .strict ∧ raw ≠ 0x00#8))
    | .err (.io .framingError) => decide (s.phase = .rToken)
    | .err (.io .busyTimeout) => decide (s.phase = .wBusy ∧ s.busyBound ≠ none)

/-- The operation in progress ends with a result: `return Ok(v)`, which makes INITIALIZE `Ready` (R186), or `raise F(info)`. Where
no operation can end with it, nothing changes: RESULT and INIT_STATE are read-only to the host (R29), and INIT_STATE has no other
transition (R187; log entry 13). -/
def State.endBy (s : State) (r : Result) : State :=
  if s.canEnd r then
    match r with
    | .none => s
    | .ok v => { s.succeed v with initState := if s.phase = .iStatusLo then .ready else s.initState }
    | .err f => s.raise f
  else s

/-- RESULT_OK: `return Ok(v)`, `v` in `info` (R100). -/
def execResultOk (info : Half) (s : State) : Out := .next (s.endBy (.ok info))

/-- RESULT_NO_RESPONSE: `raise NoResponse`, which carries nothing; its `info` is always `0x00FF` (R100, R180). -/
def execResultNoResponse (_ : Half) (s : State) : Out := .next (s.endBy (.err (.init .noResponse)))

/-- RESULT_UNEXPECTED_RESET_RESPONSE: `raise UnexpectedResetResponse(code)`, `code` the low byte of `info` (R100, R180). -/
def execResultUnexpectedResetResponse (info : Half) (s : State) : Out :=
  .next (s.endBy (.err (.init (.unexpectedResetResponse info.low))))

/-- RESULT_CARD_NOT_READY: `raise CardNotReady(code)`, `code` the low byte of `info` (R100, R183). -/
def execResultCardNotReady (info : Half) (s : State) : Out := .next (s.endBy (.err (.init (.cardNotReady info.low))))

/-- RESULT_STATUS_NOT_READY: `raise StatusNotReady(code)`, `code` all of `info` (R100, R185). -/
def execResultStatusNotReady (info : Half) (s : State) : Out := .next (s.endBy (.err (.init (.statusNotReady info))))

/-- RESULT_PROTOCOL_ERROR: `raise ProtocolError(raw)`, `raw` the low byte of `info` (R100, R206, R224). -/
def execResultProtocolError (info : Half) (s : State) : Out := .next (s.endBy (.err (.io (.protocolError info.low))))

/-- RESULT_FRAMING_ERROR: `raise FramingError`; its `info` is always `0x00FF` (R100, R206). -/
def execResultFramingError (_ : Half) (s : State) : Out := .next (s.endBy (.err (.io .framingError)))

/-- RESULT_BUSY_TIMEOUT: `raise BusyTimeout`; its `info` is always 0 (R100, R228). -/
def execResultBusyTimeout (_ : Half) (s : State) : Out := .next (s.endBy (.err (.io .busyTimeout)))

end Sys2Proof.Machine
end

