-- ==== Sys2Proof/Machine/SectorRead.lean ====
section
/-! DEFINITION. Sector Read (44_sector_read.md R200): one definition per phase of READ_SECTOR (10_state.md R27), each making the
phase's next transaction. -/

namespace Sys2Proof.Machine

/-- The command of READ_SECTOR begins: CMD17 with the offset of `ADDR` (R201). -/
def State.beginRead (s : State) : State := s.enterFrame .rCmd Config.idxRead (offsetHi s.addr) (offsetLo s.addr)

/-- `R_Cmd`: one byte of the frame (R201). -/
def stepReadCmd (s : State) : Out := frameStep s (fun t => .next (t.enterPoll .rAck)) .next

/-- `R_Ack`: one poll of READ_R1; the value is kept in `ACK` and not inspected here (R202). -/
def stepReadAck (s : State) : Out := pollStep s (fun r t => .next ({ t with ack := r }.enterCount .rToken)) .next

/-- The acceptance test, made once after the token poll has ended: timeout, then acknowledgment, then token (R205, R206). -/
def tokenDecision (s : State) : State :=
  if s.tok = Config.idleByte then (s.reportR1 s.tok).raise (.io .framingError)
  else if s.ack ≠ Config.r1Ready then (s.reportR1 s.ack).raise (.io (.protocolError s.ack))
  else if s.tok ≠ Config.tokenStart then (s.reportR1 s.tok).raise (.io (.protocolError s.tok))
  else s.enterBytes .rData

/-- `R_Token`: one token poll; it ends at the first answer that is not `0xFF`, or after 65535 polls (R203, R204). -/
def stepReadToken (s : State) : Out :=
  xchg Config.idleByte s fun b t =>
    let u := { t with tok := b, cnt := t.cnt + 1 }
    .next (if b ≠ Config.idleByte ∨ u.cnt = Config.nToken then tokenDecision u else u)

/-- `R_Data`: one payload byte is received and written to the buffer at index `BYTE` (R207, R52). -/
def stepReadData (s : State) : Out :=
  xchg Config.idleByte s fun b t =>
    memWrite t.byte.toNat b t fun u =>
      let v := { u with byte := u.byte + 1#10 }
      .next (if v.byte = 512#10 then v.enterBytes .rCrc else v)

/-- `R_Crc`: one checksum byte is received and discarded; after the second the operation succeeds (R208). -/
def stepReadCrc (s : State) : Out := checksumStep s (fun t => .next (t.succeed 0#16)) .next

end Sys2Proof.Machine
end

