-- ==== Sys2Proof/Machine/SectorWrite.lean ====
section
/-! DEFINITION. Sector Write (45_sector_write.md R220): one definition per phase of WRITE_SECTOR (10_state.md R27), each making the
phase's next transaction. -/

namespace Sys2Proof.Machine

/-- The command of WRITE_SECTOR begins: CMD24 with the offset of `ADDR` (R221). -/
def State.beginWrite (s : State) : State := s.enterFrame .wCmd Config.idxWrite (offsetHi s.addr) (offsetLo s.addr)

/-- `W_Cmd`: one byte of the frame (R221). -/
def stepWriteCmd (s : State) : Out := frameStep s (fun t => .next (t.enterPoll .wAck)) .next

/-- The acknowledgment is kept in `ACK`; in `strict` mode one that is not `0x00` ends the operation (R222, R223, R224). -/
def ackDecision (r : Byte) (s : State) : State :=
  let t := { s with ack := r }
  if t.writeAckMode = .strict ∧ t.ack ≠ Config.r1Ready then (t.reportR1 t.ack).raise (.io (.protocolError t.ack))
  else { t with phase := .wToken }

/-- `W_Ack`: one poll of READ_R1 (R222). -/
def stepWriteAck (s : State) : Out := pollStep s (fun r t => .next (ackDecision r t)) .next

/-- `W_Token`: the data start token is sent, its answer discarded (R225). -/
def stepWriteToken (s : State) : Out := xchg Config.tokenStart s fun _ t => .next (t.enterBytes .wData)

/-- `W_Data`: the buffer byte at index `BYTE` is read and sent, the answer discarded (R225, R53). -/
def stepWriteData (s : State) : Out :=
  memRead s.byte.toNat s fun b t =>
    xchg b t fun _ u =>
      let v := { u with byte := u.byte + 1#10 }
      .next (if v.byte = 512#10 then v.enterBytes .wCrc else v)

/-- `W_Crc`: one filler checksum byte is sent (R226). -/
def stepWriteCrc (s : State) : Out := checksumStep s (fun t => .next { t with phase := .wResp }) .next

/-- `W_Resp`: one more idle byte, whose answer is discarded (R227). -/
def stepWriteResp (s : State) : Out := xchg Config.idleByte s fun _ t => .next (t.enterCount .wBusy)

/-- `W_Busy`: one busy poll; success at `0xFF`, a timeout when `BUSY_BOUND` polls have been made, otherwise another poll
(R227, R228). -/
def stepWriteBusy (s : State) : Out :=
  xchg Config.idleByte s fun w t =>
    let u := { t with cnt := t.cnt + 1 }
    .next (if w = Config.idleByte then u.succeed 0#16
      else if u.busyBound = some u.cnt then u.raise (.io .busyTimeout)
      else u)

end Sys2Proof.Machine
end

