-- ==== Sys2Proof/Machine/HostRequests.lean ====
section
/-! DEFINITION. The host operations (30_encoding.md R98): acceptance of a request, which starts the operation (10_state.md R29),
and the two control operations, which complete in one step (46_control.md). The transactions of the other three are the
sequencer's, one a step (10_state.md R27; log entry 5). -/

namespace Sys2Proof.Machine

/-- A request is accepted: `BUSY <- 1` and `OP` takes its code (R24, R29). -/
def State.accept (s : State) (op : BitVec 3) : State := { s with busy := true, op := op }

/-- The sequencer leaves `Idle` for the first phase of the operation in `OP` (R24, R27). -/
def State.dispatch (s : State) : State :=
  match s.op.toNat with
  | 1 => { s with initState := .powerOn, phase := .iXportInit }
  | 2 => s.beginRead
  | 3 => s.beginWrite
  | _ => s

/-- A control operation: `return Ok(CONTROL_VALUE)`, no transaction; the value is a fresh free value (R240, R241). -/
def State.control (s : State) : State :=
  { s with draws := s.draws + 1 }.succeed (Config.controlValue s.draws)

/-- CONTROL_NOOP (R240). A request presented while `BUSY = 1` is not accepted and has no effect (R267). -/
def execControlNoop (_ : BitVec 32) (s : State) : Out := .next (if s.busy then s else (s.accept 0#3).control)

/-- INITIALIZE is accepted: `INIT_STATE <- PowerOn` and the sequencer starts (R176, R177); not accepted while busy (R267). -/
def execInitializeCard (_ : BitVec 32) (s : State) : Out := .next (if s.busy then s else (s.accept 1#3).dispatch)

/-- READ_SECTOR is accepted: `ADDR` is latched and the sequencer starts (R24, R200); not accepted while busy (R267). -/
def execReadSector (addr : Addr) (s : State) : Out :=
  .next (if s.busy then s else { s.accept 2#3 with addr := addr }.dispatch)

/-- WRITE_SECTOR is accepted: `ADDR` is latched and the sequencer starts (R24, R220); not accepted while busy (R267). -/
def execWriteSector (addr : Addr) (s : State) : Out :=
  .next (if s.busy then s else { s.accept 3#3 with addr := addr }.dispatch)

/-- CONTROL_QUERY_SECTOR_COUNT: the effects of CONTROL_NOOP (R241); not accepted while busy (R267). -/
def execControlQuerySectorCount (_ : BitVec 32) (s : State) : Out :=
  .next (if s.busy then s else (s.accept 4#3).control)

/-- HOSTREQ_RESERVED_5: names no operation, is not accepted, and leaves every register unchanged (R98; log entry 8). -/
def execHostReqReserved5 (_ : BitVec 32) (s : State) : Out := .next s

/-- HOSTREQ_RESERVED_6: names no operation, is not accepted, and leaves every register unchanged (R98; log entry 8). -/
def execHostReqReserved6 (_ : BitVec 32) (s : State) : Out := .next s

/-- HOSTREQ_RESERVED_7: names no operation, is not accepted, and leaves every register unchanged (R98; log entry 8). -/
def execHostReqReserved7 (_ : BitVec 32) (s : State) : Out := .next s

/-- The block is reset: the values of R36; the caller's buffer, the sink and the host's moves are outside the block and stay.
A reset during an operation leaves the card in an undefined state: the transport is then `line`, any transport at all, which may
answer anything or complete nothing (R261, R292, D25; that it is an operand of the move is the model's choice, log entry 18). A
reset while no operation runs does not reach the card (R291). -/
def State.blockReset (s : State) (line : Transport) : State :=
  { State.reset with
    buf := s.buf, sink := s.sink, draws := s.draws, host := s.host
    xport := if s.busy then line else s.xport }

/-- What the host reads at its interface: `BUSY`, the word of `RESULT`, `INIT_STATE`, and the configuration (R29, R269, R37). -/
structure HostView where
  busy : Bool
  result : Option (BitVec 4 × Half)
  initState : InitState
  writeAckMode : BitVec 1
  busyBound : Option Nat
  deriving DecidableEq, Repr

/-- The host's view of a state (R269). -/
def State.hostView (s : State) : HostView :=
  { busy := s.busy, result := s.result.word, initState := s.initState, writeAckMode := s.writeAckMode.code
    busyBound := s.busyBound }

end Sys2Proof.Machine
end

