-- ==== Sys2Proof/Machine/Sequencer.lean ====
section
/-! DEFINITION. The sequencer: in each phase of 10_state.md R27, the phase's next transaction. -/

namespace Sys2Proof.Machine

/-- One step of the running operation. In `Idle` there is none to make. -/
def sequence (s : State) : Out :=
  match s.phase with
  | .idle => .next s
  | .iXportInit => stepXportInit s
  | .iResetCmd => stepResetCmd s
  | .iResetResp => stepResetResp s
  | .iOpCondCmd => stepOpCondCmd s
  | .iOpCondResp => stepOpCondResp s
  | .iStatusCmd => stepStatusCmd s
  | .iStatusHi => stepStatusHi s
  | .iStatusLo => stepStatusLo s
  | .rCmd => stepReadCmd s
  | .rAck => stepReadAck s
  | .rToken => stepReadToken s
  | .rData => stepReadData s
  | .rCrc => stepReadCrc s
  | .wCmd => stepWriteCmd s
  | .wAck => stepWriteAck s
  | .wToken => stepWriteToken s
  | .wData => stepWriteData s
  | .wCrc => stepWriteCrc s
  | .wResp => stepWriteResp s
  | .wBusy => stepWriteBusy s

/-- The block on its own: the running operation's next transaction, or waiting in `Idle` with `BUSY = 0` (R272, R291). -/
def advance (s : State) : Out := if s.busy then sequence s else .next s

end Sys2Proof.Machine
end

