-- ==== Sys2Proof/Machine/DataBlocks.lean ====
section
/-! DEFINITION. The data blocks (30_encoding.md R96, R97). They follow the acknowledgment of CMD17 and CMD24, so the rows have
their effect in an operation that has reached that place, and none anywhere else: the block offers no way to take up a data block
without its command (70_reset_and_hazards.md R306; log entry 14). -/

namespace Sys2Proof.Machine

/-- At most `n` transactions of the running operation, ending when the sequencer enters the phase `last`. -/
def runUntil (last : Phase) : Nat → State → Out
  | 0, s => .next s
  | n + 1, s =>
    match sequence s with
    | .next t => if t.phase = last then .next t else runUntil last n t
    | .fault f => .fault f
    | .refused r => .refused r

/-- RDBLOCK, after the acknowledgment of CMD17: the token poll, the acceptance test, the payload and the checksum bytes, to the
end of the operation (R96, R203 to R208). In any other phase nothing happens. -/
def execRdblock (s : State) : Out :=
  if s.busy = true ∧ s.phase = .rToken then runUntil .idle (Config.nToken + Config.sectorSize + Config.nCrc) s
  else .next s

/-- WRBLOCK, after the acknowledgment of CMD24: the token, the payload, the filler checksum and the discarded byte (R97, R225 to
R227). The busy poll that ends the block has no ceiling without a bound (R263) and stays the sequencer's, one exchange a step. In
any other phase nothing happens. -/
def execWrblock (s : State) : Out :=
  if s.busy = true ∧ s.phase = .wToken then runUntil .wBusy (1 + Config.sectorSize + Config.nCrc + 1) s
  else .next s

end Sys2Proof.Machine
end

