-- ==== Sys2Proof/Machine/Diagnostics.lean ====
section
/-! DEFINITION. The diagnostic events (30_encoding.md R101): each is delivered to the sink and changes nothing else. R161 and
D14 list the places of the operations that deliver events; that a row presented on its own delivers its event too, with whatever label
and raw value it carries, is the model's choice (log entry 30). -/

namespace Sys2Proof.Machine

/-- DIAG_R1CLASS: `Diag(R1Class(c, raw))` (R101, R162; on its own: log entry 30). -/
def execDiagR1Class (label : R1Label) (raw : Byte) (s : State) : Out := .next (s.report (.r1Class label raw))

/-- DIAG_R2CLASS: `Diag(R2Class(c, raw))` (R101, R162; on its own: log entry 30). -/
def execDiagR2Class (label : R2Label) (raw : Half) (s : State) : Out := .next (s.report (.r2Class label raw))

end Sys2Proof.Machine
end

