-- ==== Sys2Proof/Machine/Framer.lean ====
section
/-! DEFINITION. The Command Framer (40_command_framer.md): SEND_COMMAND in full generality (R87) and the five commands. Run on its
own a procedure makes all its exchanges in one step and touches neither `BUSY` nor `PHASE` (log entry 10). -/

namespace Sys2Proof.Machine

/-- At most `n` more bytes of the frame in the latches are sent. -/
def sendFrame : Nat → State → (State → Out) → Out
  | 0, s, k => k s
  | n + 1, s, k => frameStep s k fun t => sendFrame n t k

/-- SEND_COMMAND(index, arg_hi, arg_lo): the latches are written, the 8 bytes are sent, the 8 answers are discarded (R120). -/
def sendCommand (index : BitVec 6) (argHi argLo : Half) (s : State) (k : State → Out) : Out :=
  sendFrame Config.frameLen (s.latchFrame index argHi argLo) k

/-- SEND_COMMAND (R120, R121). -/
def execSendCommand (index : BitVec 6) (argHi argLo : Half) (s : State) : Out :=
  sendCommand index argHi argLo s .next

/-- CMD0, "go idle" (R123). -/
def execCmd0 (s : State) : Out := sendCommand Config.idxGoIdle 0#16 0#16 s .next

/-- CMD1, "send operating condition" (R124). -/
def execCmd1 (s : State) : Out := sendCommand Config.idxOpCond 0#16 0#16 s .next

/-- CMD13, "send status" (R125). -/
def execCmd13 (s : State) : Out := sendCommand Config.idxStatus 0#16 0#16 s .next

/-- CMD17, "read single block", of a sector address (R126). -/
def execCmd17 (addr : Addr) (s : State) : Out :=
  sendCommand Config.idxRead (offsetHi addr) (offsetLo addr) s .next

/-- CMD24, "write single block", of a sector address (R127). -/
def execCmd24 (addr : Addr) (s : State) : Out :=
  sendCommand Config.idxWrite (offsetHi addr) (offsetLo addr) s .next

end Sys2Proof.Machine
end

