-- ==== Sys2Proof/Machine/Markers.lean ====
section
/-! DEFINITION. The single-byte markers the block sends (30_encoding.md R102), each one exchange. -/

namespace Sys2Proof.Machine

/-- IDLE: one idle byte is exchanged, as in every poll, and the answer is returned (R102, R11). -/
def execIdle (s : State) : Out := xchg Config.idleByte s fun i t => .next { t with returned := .byte i }

/-- DATA_START_TOKEN: the token is sent and its answer is discarded (R102, R225). -/
def execDataStartToken (s : State) : Out := xchg Config.tokenStart s fun _ t => .next t

end Sys2Proof.Machine
end

