-- ==== Sys2Proof/Machine/ResponseDecoder.lean ====
section
/-! DEFINITION. The Response Decoder (41_response_decoder.md): READ_R1 and READ_R2, and the two whole-byte R1 values of
30_encoding.md R91 as responses the decoder delivers. -/

namespace Sys2Proof.Machine

/-- At most `n` more polls. -/
def pollR1 : Nat → State → (Byte → State → Out) → Out
  | 0, s, k => k s.r1 s
  | n + 1, s, k => pollStep s k fun t => pollR1 n t k

/-- READ_R1(): at most 8 polls, the first answer that is not `0xFF`, or `0xFF` after the eighth (R140). -/
def readR1 (s : State) (k : Byte → State → Out) : Out := pollR1 Config.nR1Poll { s with poll := 0#4 } k

/-- READ_R2(): READ_R1 for the high byte, then one unconditional exchange for the low byte (R144). -/
def readR2 (s : State) (k : Half → State → Out) : Out :=
  readR1 s fun high t =>
    xchg Config.idleByte t fun low u => k (composeR2 high low) { u with r2 := composeR2 high low }

/-- READ_R1 (R140): `POLL` and `R1` are written, and the value is returned. -/
def execReadR1 (s : State) : Out := readR1 s fun r t => .next { t with returned := .byte r }

/-- READ_R2 (R144): `POLL`, `R1` and `R2` are written, and the value is returned. -/
def execReadR2 (s : State) : Out := readR2 s fun w t => .next { t with returned := .word w }

/-- The response decoder delivers an R1 value: `R1 <- r; return r` (R140). -/
def State.deliverR1 (s : State) (r : Byte) : State := { s with r1 := r, returned := .byte r }

/-- R1_NO_RESPONSE: the R1 value `0xFF`, "no response yet / line idle" (R91, R93; log entry 12). -/
def execR1NoResponse (s : State) : Out := .next (s.deliverR1 0xFF#8)

/-- R1_READY: the R1 value `0x00`, "success/ready" (R91; log entry 12). -/
def execR1Ready (s : State) : Out := .next (s.deliverR1 0x00#8)

end Sys2Proof.Machine
end

