-- ==== Sys2Proof/Machine/Dispatch.lean ====
section
/-! DEFINITION. The meaning of each instruction: one arm per constructor. -/

namespace Sys2Proof.Machine

def exec (i : Instr) (s : State) : Host.Outcome State Fault Refusal :=
  match i with
  | .sendCommand index argHi argLo => Sys2Proof.Machine.execSendCommand index argHi argLo s
  | .cmd0 => Sys2Proof.Machine.execCmd0 s
  | .cmd1 => Sys2Proof.Machine.execCmd1 s
  | .cmd13 => Sys2Proof.Machine.execCmd13 s
  | .cmd17 addr => Sys2Proof.Machine.execCmd17 addr s
  | .cmd24 addr => Sys2Proof.Machine.execCmd24 addr s
  | .controlNoop ignored => Sys2Proof.Machine.execControlNoop ignored s
  | .initializeCard ignored => Sys2Proof.Machine.execInitializeCard ignored s
  | .readSector addr => Sys2Proof.Machine.execReadSector addr s
  | .writeSector addr => Sys2Proof.Machine.execWriteSector addr s
  | .controlQuerySectorCount ignored => Sys2Proof.Machine.execControlQuerySectorCount ignored s
  | .hostReqReserved5 ignored => Sys2Proof.Machine.execHostReqReserved5 ignored s
  | .hostReqReserved6 ignored => Sys2Proof.Machine.execHostReqReserved6 ignored s
  | .hostReqReserved7 ignored => Sys2Proof.Machine.execHostReqReserved7 ignored s
  | .readR1 => Sys2Proof.Machine.execReadR1 s
  | .readR2 => Sys2Proof.Machine.execReadR2 s
  | .idle => Sys2Proof.Machine.execIdle s
  | .dataStartToken => Sys2Proof.Machine.execDataStartToken s
  | .r1NoResponse => Sys2Proof.Machine.execR1NoResponse s
  | .r1Ready => Sys2Proof.Machine.execR1Ready s
  | .r1Initializing => Sys2Proof.Machine.execR1Initializing s
  | .r1EraseReset => Sys2Proof.Machine.execR1EraseReset s
  | .r1IllegalCommand => Sys2Proof.Machine.execR1IllegalCommand s
  | .r1CrcFailed => Sys2Proof.Machine.execR1CrcFailed s
  | .r1EraseSequenceError => Sys2Proof.Machine.execR1EraseSequenceError s
  | .r1AddressOutOfBounds => Sys2Proof.Machine.execR1AddressOutOfBounds s
  | .r1ArgumentOutOfBounds => Sys2Proof.Machine.execR1ArgumentOutOfBounds s
  | .r1Unknown raw => Sys2Proof.Machine.execR1Unknown raw s
  | .r2Ready => Sys2Proof.Machine.execR2Ready s
  | .r2Locked => Sys2Proof.Machine.execR2Locked s
  | .r2EraseSkipLockFailed => Sys2Proof.Machine.execR2EraseSkipLockFailed s
  | .r2GeneralError => Sys2Proof.Machine.execR2GeneralError s
  | .r2ControllerError => Sys2Proof.Machine.execR2ControllerError s
  | .r2EccFailure => Sys2Proof.Machine.execR2EccFailure s
  | .r2WriteProtectViolation => Sys2Proof.Machine.execR2WriteProtectViolation s
  | .r2InvalidEraseSelection => Sys2Proof.Machine.execR2InvalidEraseSelection s
  | .r2OutOfRange => Sys2Proof.Machine.execR2OutOfRange s
  | .r2DelegateR1 high low => Sys2Proof.Machine.execR2DelegateR1 high low s
  | .r2Unknown low => Sys2Proof.Machine.execR2Unknown low s
  | .resultOk info => Sys2Proof.Machine.execResultOk info s
  | .resultNoResponse info => Sys2Proof.Machine.execResultNoResponse info s
  | .resultUnexpectedResetResponse info => Sys2Proof.Machine.execResultUnexpectedResetResponse info s
  | .resultCardNotReady info => Sys2Proof.Machine.execResultCardNotReady info s
  | .resultStatusNotReady info => Sys2Proof.Machine.execResultStatusNotReady info s
  | .resultProtocolError info => Sys2Proof.Machine.execResultProtocolError info s
  | .resultFramingError info => Sys2Proof.Machine.execResultFramingError info s
  | .resultBusyTimeout info => Sys2Proof.Machine.execResultBusyTimeout info s
  | .rdblock => Sys2Proof.Machine.execRdblock s
  | .wrblock => Sys2Proof.Machine.execWrblock s
  | .diagR1Class label raw => Sys2Proof.Machine.execDiagR1Class label raw s
  | .diagR2Class label raw => Sys2Proof.Machine.execDiagR2Class label raw s
  | .classifyR1 b => Sys2Proof.Machine.execClassifyR1 b s
  | .classifyR2 w => Sys2Proof.Machine.execClassifyR2 w s

end Sys2Proof.Machine
end

