-- ==== Sys2Proof/Machine/Fetch.lean ====
section
/-! DEFINITION. Where the next step comes from: the running operation, or the host's next move (60_exceptions.md R267, R269). The
block has no program counter and fetches no instructions (10_state.md R27); what it takes next is the head of the host's list of
moves (log entry 6). -/

namespace Sys2Proof.Machine

/-- The host's move is made, with BUSY 0 (R30, R67, R267). -/
def takeMove (m : HostMove) (s : State) : Out :=
  match m with
  | .request bytes =>
    match decode bytes with
    | .ok i => exec i s
    | .error e => .refused (.undecoded e)
  | .setWriteAckMode mode => .next { s with writeAckMode := mode }
  | .setBusyBound bound =>
    if bound = some 0 then .refused .busyBoundZero else .next { s with busyBound := bound }
  | .storeBuffer index value => .next { s with buf := Memory.write s.buf index.val value }
  | .await => .next s
  | .pause _ => .next s
  | .reset line => .next (s.blockReset line)

/-- A move presented while BUSY is 1: a request or a configuration write is not accepted, is not queued and changes nothing, so
the operation makes its next transaction as without it (R267, R30, D7); a write of the buffer has no step (R67; log entry 20). -/
def moveWhileBusy (m : HostMove) (s : State) : Out :=
  match m with
  | .request _ => sequence s
  | .setWriteAckMode _ => sequence s
  | .setBusyBound _ => sequence s
  | .storeBuffer _ _ => .refused .bufferInUse
  | .await => sequence s
  | .pause _ => sequence s
  | .reset line => .next (s.blockReset line)

/-- One step: a reset happens whether the block is busy or not (R292); a host that pauses or awaits the end of the operation makes
no move beside the block's own step (R291); every other move is made now, and counts only while `BUSY = 0`. -/
def nextStep (s : State) : Out :=
  match s.host with
  | [] => advance s
  | .reset line :: rest => .next ({ s with host := rest }.blockReset line)
  | .pause 0 :: rest => advance { s with host := rest }
  | .pause (n + 1) :: rest => advance { s with host := .pause n :: rest }
  | .await :: rest => if s.busy then sequence s else .next { s with host := rest }
  | m :: rest => if s.busy then moveWhileBusy m { s with host := rest } else takeMove m { s with host := rest }

end Sys2Proof.Machine
end

