-- ==== Sys2Proof/Machine/Step.lean ====
section
/-! DEFINITION. The step function, and how a word of the opcode table is put where the next step takes its instruction. -/

namespace Sys2Proof.Machine

/-- One step of the machine. -/
def step (s : State) : Host.Outcome State Fault Refusal := nextStep s

/-- The word of an opcode-table row is presented as the host's next request, with no operation running, so that the next step
runs it (log entry 6). -/
def State.withFetchWord (s : State) (nbits w : Nat) : State :=
  { s with busy := false, phase := .idle, host := .request (tableBytes nbits w) :: s.host }

end Sys2Proof.Machine
end

