-- ==== Sys2Proof/Safety.lean ====
section
/-! DEFINITION. The terms in which claims are made: what the transport is going to answer, a run of steps, and the invariant
that makes a state one the block can be in. -/

namespace Sys2Proof.Machine

/-! ### The transport's answers -/

/-- The transport will answer its next exchanges with exactly these bytes: a hypothesis on the oracle (R34, R261). -/
def State.Supplies (s : State) (answers : List Byte) : Prop :=
  ∀ k (h : k < answers.length), s.answerAt k = some answers[k]

/-- The state whose transport has given `n` more answers, all else unchanged. -/
def State.skip : Nat → State → State
  | 0, s => s
  | n + 1, s => State.skip n s.consume

/-- The elements of `T` of exchanges that sent `outs` and received `answers` (R33). -/
def exchanges (outs answers : List Byte) : List Transaction := List.zipWith Transaction.xchg outs answers

/-- The idle byte `n` times. -/
def idleBytes (n : Nat) : List Byte := List.replicate n Config.idleByte

/-- The answers one READ_R1 takes to return `r`: idle bytes, then `r`; `r` is not the idle byte unless it is the eighth
answer (R140, R141). -/
def Polled (answers : List Byte) (r : Byte) : Prop :=
  ∃ j, j < Config.nR1Poll ∧ answers = idleBytes j ++ [r] ∧ (r ≠ Config.idleByte ∨ j + 1 = Config.nR1Poll)

/-- One attempt of a retry loop of INITIALIZE as the transport answers it: 8 discarded answers to the frame, the answers of
one READ_R1, and the response it returns (R178, R181). -/
structure Attempt where
  frame : List Byte
  polls : List Byte
  response : Byte

/-- The answers of an attempt are those of one frame and one READ_R1. -/
def Attempt.Valid (a : Attempt) : Prop := a.frame.length = Config.frameLen ∧ Polled a.polls a.response

/-- An attempt that is answered with nothing but idle bytes (R188). -/
def Attempt.silent : Attempt := { frame := idleBytes 8, polls := idleBytes 8, response := Config.idleByte }

/-- All the answers of an attempt. -/
def Attempt.answers (a : Attempt) : List Byte := a.frame ++ a.polls

/-- The exchanges of an attempt that sends a command with zero arguments. -/
def Attempt.exchanges (index : BitVec 6) (a : Attempt) : List Transaction :=
  Machine.exchanges (frameBytes index 0#16 0#16 ++ idleBytes a.polls.length) a.answers

/-- The answers of consecutive attempts. -/
def attemptAnswers (as : List Attempt) : List Byte := as.flatMap Attempt.answers

/-- The exchanges of consecutive attempts. -/
def attemptExchanges (index : BitVec 6) (as : List Attempt) : List Transaction := as.flatMap (Attempt.exchanges index)

/-- The events of consecutive attempts of stage 2 that were not answered `0x00`, newest first (R182). -/
def attemptEvents (as : List Attempt) : List DiagEvent :=
  (as.map fun a => DiagEvent.r1Class (classR1 a.response) a.response).reverse

/-! ### Runs -/

/-- `n` steps lead from `s` to `t`. -/
def Runs (n : Nat) (s t : State) : Prop := Host.Core.run Sys2Proof.core n s = .next t

/-- The host makes no move while an operation runs: it has none left, or it waits for the operation's end (R67, R267). -/
def State.HostWaits (s : State) : Prop := s.host = [] ∨ ∃ rest, s.host = .await :: rest

/-- The transport completes every transaction (R188, R261). -/
def State.Completes (s : State) : Prop := s.xport.after ≠ .hung ∧ s.xport.inits = none

/-! ### The invariant -/

/-- In a phase that sends a frame, the latches hold the frame of the phase's command (R85, R123 to R127). -/
def State.FrameFits (s : State) : Prop :=
  match s.phase with
  | .iResetCmd => s.idxCmd = Config.idxGoIdle ∧ s.argHi = 0#16 ∧ s.argLo = 0#16
  | .iOpCondCmd => s.idxCmd = Config.idxOpCond ∧ s.argHi = 0#16 ∧ s.argLo = 0#16
  | .iStatusCmd => s.idxCmd = Config.idxStatus ∧ s.argHi = 0#16 ∧ s.argLo = 0#16
  | .rCmd => s.idxCmd = Config.idxRead ∧ s.argHi = offsetHi s.addr ∧ s.argLo = offsetLo s.addr
  | .wCmd => s.idxCmd = Config.idxWrite ∧ s.argHi = offsetHi s.addr ∧ s.argLo = offsetLo s.addr
  | _ => True

/-- Every counter of the phase's loop is below its ceiling (R25, R268). -/
def State.CountersFit (s : State) : Prop :=
  match s.phase with
  | .idle | .iXportInit | .iStatusLo | .wToken | .wResp => True
  | .iResetCmd => s.byte.toNat < 8 ∧ s.cnt < Config.nReset
  | .iResetResp => s.poll.toNat < 8 ∧ s.cnt < Config.nReset
  | .iOpCondCmd => s.byte.toNat < 8 ∧ s.cnt < Config.nOpCond
  | .iOpCondResp => s.poll.toNat < 8 ∧ s.cnt < Config.nOpCond
  | .iStatusCmd | .rCmd | .wCmd => s.byte.toNat < 8
  | .iStatusHi | .rAck | .wAck => s.poll.toNat < 8
  | .rToken => s.cnt < Config.nToken
  | .rData | .wData => s.byte.toNat < Config.sectorSize
  | .rCrc | .wCrc => s.byte.toNat < Config.nCrc
  | .wBusy => ∀ n, s.busyBound = some n → s.cnt < n

/-- `INIT_STATE` is the state of the stage INITIALIZE is in, and outside INITIALIZE a state it rests in (R28, R187). -/
def State.InitStateFits (s : State) : Prop :=
  match s.phase with
  | .iXportInit => s.initState = .powerOn
  | .iResetCmd | .iResetResp => s.initState = .resetWait
  | .iOpCondCmd | .iOpCondResp => s.initState = .opCondWait
  | .iStatusCmd | .iStatusHi | .iStatusLo => s.initState = .statusCheck
  | _ => s.initState ≠ .resetWait ∧ s.initState ≠ .opCondWait ∧ s.initState ≠ .statusCheck

/-- The payload of a read is received only after the acceptance test has passed (R205). -/
def State.AcceptedFits (s : State) : Prop :=
  match s.phase with
  | .rData | .rCrc => s.ack = Config.r1Ready ∧ s.tok = Config.tokenStart
  | _ => True

/-- What holds of every state the block can be in. -/
structure State.Inv (s : State) : Prop where
  /-- the buffer is in canonical form -/
  bufCanonical : Memory.wf s.buf = true
  /-- `BUSY` is 1 exactly while an operation is in progress (R27, R29) -/
  busyIff : s.busy = true ↔ s.phase ≠ .idle
  /-- `BUSY_BOUND` is `none` or positive (R30) -/
  boundPositive : s.busyBound ≠ some 0
  /-- `OP` is the code of the operation in progress (R24) -/
  opFits : ∀ c, s.phase.opCode = some c → s.op = c
  frameFits : s.FrameFits
  countersFit : s.CountersFit
  initStateFits : s.InitStateFits
  acceptedFits : s.AcceptedFits

/-- The transitions of `INIT_STATE` while an operation runs (R187); `ResetWait`'s and `OpCondWait`'s own loops and every phase
of the other operations leave it as it is. -/
inductive InitTransition : InitState → InitState → Prop where
  | stay (x : InitState) : InitTransition x x
  | transportReady : InitTransition .powerOn .resetWait
  | resetDone : InitTransition .resetWait .opCondWait
  | noResponse : InitTransition .resetWait (.failed .noResponse)
  | unexpectedResetResponse (r : Byte) (h : r ≠ 0x01#8 ∧ r ≠ 0xFF#8) :
      InitTransition .resetWait (.failed (.unexpectedResetResponse r))
  | opCondDone : InitTransition .opCondWait .statusCheck
  | cardNotReady (r : Byte) (h : r ≠ 0x00#8) : InitTransition .opCondWait (.failed (.cardNotReady r))
  | statusReady : InitTransition .statusCheck .ready
  | statusNotReady (w : Half) (h : w ≠ 0x0000#16) : InitTransition .statusCheck (.failed (.statusNotReady w))

/-! ### What two states may differ in -/

/-- The state without its diagnostic sink and its diagnostic history (R162, R257). -/
def State.withoutDiagnostics (s : State) : State := { s with sink := false, diag := [] }

/-- The state without what the block only writes and never reads: `INIT_STATE`, `RESULT`, the two histories and the return
port (R28, R29, R33). -/
def State.withoutHistory (s : State) : State :=
  { s with initState := .powerOn, result := .none, trace := [], diag := [], returned := .nothing }

/-- The next state of an outcome seen through a function; a stop is unchanged. -/
def mapNext (f : State → State) : Out → Out
  | .next t => .next (f t)
  | .fault r => .fault r
  | .refused r => .refused r

end Sys2Proof.Machine
end

