-- ==== Sys2Proof/Certificates/Slice0/Obligations.lean ====
section
/-! DEFINITION. The statements for the provers. A history grows at its head (log entry 21), so new elements stand reversed in front
of the old ones. -/

open Sys2Proof Sys2Proof.Machine

namespace Sys2Proof.Machine

/-! ### Terms the statements share -/

/-- The instruction of a request word's 3-bit code (R98). -/
def hostInstr (op : BitVec 3) (a : Addr) : Instr :=
  match op.toNat with
  | 0 => .controlNoop a
  | 1 => .initializeCard a
  | 2 => .readSector a
  | 3 => .writeSector a
  | 4 => .controlQuerySectorCount a
  | 5 => .hostReqReserved5 a
  | 6 => .hostReqReserved6 a
  | _ => .hostReqReserved7 a

/-- The state after one frame with these fields was sent and answered: the frame latches, `BYTE`, the transport and the
trace, and nothing else (R120). -/
def State.afterFrame (s : State) (index : BitVec 6) (hi lo : Half) (outs answers : List Byte) : State :=
  { s.skip 8 with
    idxCmd := index, argHi := hi, argLo := lo, byte := 8#10
    trace := (exchanges outs answers).reverse ++ s.trace }

/-- The seven named arms of CLASSIFY_R1: the row, its byte, its label (R156). -/
def r1Arms : List (Instr × Byte × R1Label) :=
  [(.r1Initializing, 0x01#8, .initializing), (.r1EraseReset, 0x02#8, .eraseReset),
    (.r1IllegalCommand, 0x04#8, .illegalCommand), (.r1CrcFailed, 0x08#8, .crcFailed),
    (.r1EraseSequenceError, 0x10#8, .eraseSequenceError), (.r1AddressOutOfBounds, 0x20#8, .addressOutOfBounds),
    (.r1ArgumentOutOfBounds, 0x40#8, .argumentOutOfBounds)]

/-- The nine table arms of CLASSIFY_R2: the row, its word, its label (R158, R95). -/
def r2Arms : List (Instr × Half × R2Label) :=
  [(.r2Ready, 0x0000#16, .ready), (.r2Locked, 0x0001#16, .locked),
    (.r2EraseSkipLockFailed, 0x0002#16, .eraseSkipLockFailed), (.r2GeneralError, 0x0004#16, .generalError),
    (.r2ControllerError, 0x0008#16, .controllerError), (.r2EccFailure, 0x0010#16, .eccFailure),
    (.r2WriteProtectViolation, 0x0020#16, .writeProtectViolation),
    (.r2InvalidEraseSelection, 0x0040#16, .invalidEraseSelection), (.r2OutOfRange, 0x0080#16, .outOfRange)]

/-- The answers of a token poll that ends with `tok`: idle bytes, then `tok`, which is not the idle byte unless it is the
65535th answer (R203, R204). -/
def TokenPolled (answers : List Byte) (tok : Byte) : Prop :=
  ∃ j, j < Config.nToken ∧ answers = idleBytes j ++ [tok] ∧ (tok ≠ Config.idleByte ∨ j + 1 = Config.nToken)

/-- The failure of a read whose acceptance test fails, and the byte its one diagnostic event is about (R206). -/
def readFailure (ack tok : Byte) : IoFailure × Byte :=
  if tok = 0xFF#8 then (.framingError, 0xFF#8)
  else if ack ≠ 0x00#8 then (.protocolError ack, ack)
  else (.protocolError tok, tok)

/-- The bytes a write sends after its acknowledgment, when the busy poll makes `n` exchanges (R97). -/
def writeBlockOuts (payload : List Byte) (n : Nat) : List Byte :=
  [0xFE#8] ++ payload ++ [0xFF#8, 0xFF#8, 0xFF#8] ++ idleBytes n

/-- The frame of the command a phase sends, and nothing in a phase that sends none: CMD0, CMD1 and CMD13 with zero arguments, CMD17
and CMD24 with the offset of `ADDR` (R27, R85, R86). -/
def State.phaseFrame (s : State) : Option (List Byte) :=
  match s.phase with
  | .iResetCmd => some (frameBytes 0#6 0#16 0#16)
  | .iOpCondCmd => some (frameBytes 1#6 0#16 0#16)
  | .iStatusCmd => some (frameBytes 13#6 0#16 0#16)
  | .rCmd => some (frameBytes 17#6 (offsetHi s.addr) (offsetLo s.addr))
  | .wCmd => some (frameBytes 24#6 (offsetHi s.addr) (offsetLo s.addr))
  | _ => none

/-- An element of a trace that is an exchange, not an `init` (R33). -/
def Transaction.IsXchg (e : Transaction) : Prop := ∃ o i, e = .xchg o i

/-- The state of an operation that has ended: `BUSY` is 0, the sequencer is in `Idle`, and `RESULT` holds the outcome. -/
def State.ended (s : State) (r : Result) : State := { s with busy := false, phase := .idle, result := r }

/-- The bytes sent in the new part of a trace, oldest first. -/
def newOuts (old new : List Transaction) : List Byte :=
  (new.take (new.length - old.length)).reverse.filterMap fun
    | .init => none
    | .xchg o _ => some o

end Sys2Proof.Machine

/-! ### Encoding -/

/-- Every well-formed instruction, with every operand its encoding admits, is decoded from its own bytes. -/
def Obligations.EncodedInstructionDecodesToItself : Prop :=
  ∀ i : Instr, i.wellFormed = true → decode (encode i) = .ok i

/-- The other direction: bytes that decode to an instruction are that instruction's bytes; no bit is ignored. -/
def Obligations.DecodedBytesAreTheEncoding : Prop :=
  ∀ (bytes : List Byte) (i : Instr), decode bytes = .ok i → encode i = bytes

/-- Words written out from 30_encoding.md and 40_command_framer.md decode to the instructions they stand for; the selector byte
in front is the model's (log entry 7). That request code 3 is WRITE_SECTOR is decision D3, that R2 word `0x0020` is
R2_WRITE_PROTECT_VIOLATION is decision D10 and presumed (R95; log entry 22), and that result status 5 is ProtocolError is decision
D13. -/
def Obligations.SpecWordsDecode : Prop :=
  decode [0x01#8, 0xFF#8, 0x6A#8, 0x12#8, 0x34#8, 0xAB#8, 0xCD#8, 0x95#8, 0xFF#8]
      = .ok (.sendCommand 42#6 0x1234#16 0xABCD#16) ∧
    decode [0x02#8, 0xFF#8, 0x51#8, 0x00#8, 0x00#8, 0x02#8, 0x00#8, 0x95#8, 0xFF#8] = .ok (.cmd17 1#32) ∧
    decode [0x00#8, 0x03#8, 0x00#8, 0x80#8, 0x00#8, 0x01#8] = .ok (.writeSector 0x00800001#32) ∧
    decode [0x05#8, 0xFE#8] = .ok .dataStartToken ∧
    decode [0x07#8, 0x04#8] = .ok .r1IllegalCommand ∧
    decode [0x09#8, 0x00#8, 0x20#8] = .ok .r2WriteProtectViolation ∧
    decode [0x0B#8, 0x05#8, 0x00#8, 0x04#8] = .ok (.resultProtocolError 4#16)

/-- A 35-bit request word, `op` in bits 34:32 and `addr` in bits 31:0, in the 40-bit container and at the port of the model (log entry
7), decodes to the operation of its code (R98; the codes are decision D3). That the codes 5, 6 and 7, which R98 gives no constructor
and has a decoder refuse, are instructions here is the model's reading (log entry 8). -/
def Obligations.RequestWordDecodesByItsCode : Prop :=
  ∀ (op : BitVec 3) (a : Addr), decodeTableWord 40 (op ++ a).toNat = some (hostInstr op a)

/-! ### The step -/

/-- With `BUSY = 0`, a step runs the instruction that the host's next request spells. -/
def Obligations.StepRunsTheDecodedRequest : Prop :=
  ∀ (s : State) (bytes : List Byte) (rest : List HostMove) (i : Instr),
    s.busy = false → s.host = .request bytes :: rest → decode bytes = .ok i →
      step s = exec i { s with host := rest }

/-- With `BUSY = 0`, a request whose bytes are no instruction is refused with the decoder's reason (the model's choice, log
entry 28). -/
def Obligations.UndecodableRequestIsRefused : Prop :=
  ∀ (s : State) (bytes : List Byte) (rest : List HostMove) (e : DecodeError),
    s.busy = false → s.host = .request bytes :: rest → decode bytes = .error e → step s = .refused (.undecoded e)

/-- A word of the opcode table that the decoder takes, placed by `withFetchWord`, is run by the very next step (log entry 6). -/
def Obligations.PlacedWordRunsNext : Prop :=
  ∀ (s : State) (nbits w : Nat) (i : Instr), decodeTableWord nbits w = some i →
    step (s.withFetchWord nbits w) = exec i { s with busy := false, phase := .idle }

/-- While an operation runs, a request or a configuration write is not accepted and not queued: the step is the one without it, and it
is gone (R30, R267, D7); a host that waits or pauses changes nothing of the operation either; a write of the buffer has no step (R67;
log entries 6, 20). -/
def Obligations.MoveWhileBusyIsNotAccepted : Prop :=
  ∀ (s : State) (rest : List HostMove), s.busy = true →
    (∀ m, (∃ bytes, m = .request bytes) ∨ (∃ mode, m = .setWriteAckMode mode) ∨ (∃ bound, m = .setBusyBound bound) →
      step { s with host := m :: rest } = mapNext (fun t => { t with host := rest }) (step { s with host := [] })) ∧
    step { s with host := .await :: rest }
      = mapNext (fun t => { t with host := .await :: rest }) (step { s with host := [] }) ∧
    (∀ n, step { s with host := .pause (n + 1) :: rest }
      = mapNext (fun t => { t with host := .pause n :: rest }) (step { s with host := [] })) ∧
    (∀ index value, step { s with host := .storeBuffer index value :: rest } = .refused .bufferInUse)

/-- The host writes the two configuration registers while `BUSY = 0`, each write changes that register only, and 0 is no
bound (R30, D15, D16; log entry 24). -/
def Obligations.ConfigurationWrites : Prop :=
  ∀ (s : State) (rest : List HostMove), s.busy = false →
    (∀ mode, step { s with host := .setWriteAckMode mode :: rest }
      = .next { s with host := rest, writeAckMode := mode }) ∧
    (∀ n, step { s with host := .setBusyBound (some (n + 1)) :: rest }
      = .next { s with host := rest, busyBound := some (n + 1) }) ∧
    step { s with host := .setBusyBound none :: rest } = .next { s with host := rest, busyBound := none } ∧
    step { s with host := .setBusyBound (some 0) :: rest } = .refused .busyBoundZero

/-- What reset leaves in the registers for which 10_state.md R36 gives a value (decision D18). -/
def Obligations.ResetValues : Prop :=
  State.reset.busy = false ∧ State.reset.phase = .idle ∧ State.reset.initState = .powerOn ∧
    State.reset.result = .none ∧ State.reset.writeAckMode = .permissive ∧ State.reset.busyBound = none ∧
    State.reset.trace = [] ∧ State.reset.diag = []

/-- A reset at any moment puts the block's registers at R36's values and makes no transaction; the caller's buffer stays; a reset during
an operation leaves the transport as any transport at all, and a reset while none runs does not reach it (R290, R291, R292, D25; log
entry 18). -/
def Obligations.ResetAtAnyMoment : Prop :=
  ∀ (s : State) (line : Transport) (rest : List HostMove), s.host = .reset line :: rest →
    ∃ t, step s = .next t ∧ t.busy = false ∧ t.phase = .idle ∧ t.initState = .powerOn ∧ t.result = .none ∧
      t.writeAckMode = .permissive ∧ t.busyBound = none ∧ t.trace = [] ∧ t.diag = [] ∧ t.buf = s.buf ∧
      t.sink = s.sink ∧ t.host = rest ∧ t.draws = s.draws ∧
      (s.busy = true → t.xport = line) ∧ (s.busy = false → t.xport = s.xport)

/-! ### The Command Framer -/

/-- SEND_COMMAND, for every index and every two argument words: exactly 8 exchanges with these out bytes, whatever is
answered; the frame latches are written and nothing else changes (R120, R121). That `BYTE` keeps the value 8 is log entry 26, and that
the procedure runs whole in one step on its own is log entry 10. -/
def Obligations.SendCommandEmitsTheFrame : Prop :=
  ∀ (s : State) (index : BitVec 6) (hi lo : Half) (answers : List Byte),
    answers.length = 8 → s.Supplies answers →
      exec (.sendCommand index hi lo) s
        = .next (s.afterFrame index hi lo
            [0xFF#8, 0x40#8 ||| index.setWidth 8, hi.extractLsb' 8 8, hi.extractLsb' 0 8, lo.extractLsb' 8 8,
              lo.extractLsb' 0 8, 0x95#8, 0xFF#8] answers)

/-- The five commands of the block, each with its own bytes; the offset of the sector commands is taken modulo 2^32
(R123 to R127, R86, decision D8; log entry 19). That `BYTE` keeps the value 8 is log entry 26, and that a command on its own runs
whole in one step beside `BUSY` and `PHASE` is log entry 10. -/
def Obligations.FiveCommandsEmitTheirFrames : Prop :=
  ∀ (s : State) (answers : List Byte), answers.length = 8 → s.Supplies answers →
    exec .cmd0 s = .next (s.afterFrame 0#6 0#16 0#16
      [0xFF#8, 0x40#8, 0#8, 0#8, 0#8, 0#8, 0x95#8, 0xFF#8] answers) ∧
    exec .cmd1 s = .next (s.afterFrame 1#6 0#16 0#16
      [0xFF#8, 0x41#8, 0#8, 0#8, 0#8, 0#8, 0x95#8, 0xFF#8] answers) ∧
    exec .cmd13 s = .next (s.afterFrame 13#6 0#16 0#16
      [0xFF#8, 0x4D#8, 0#8, 0#8, 0#8, 0#8, 0x95#8, 0xFF#8] answers) ∧
    (∀ a : Addr, exec (.cmd17 a) s = .next (s.afterFrame 17#6 (a.extractLsb' 7 16) (a.extractLsb' 0 7 ++ 0#9)
      [0xFF#8, 0x51#8, a.extractLsb' 15 8, a.extractLsb' 7 8, a.extractLsb' 0 7 ++ 0#1, 0#8, 0x95#8, 0xFF#8]
      answers)) ∧
    (∀ a : Addr, exec (.cmd24 a) s = .next (s.afterFrame 24#6 (a.extractLsb' 7 16) (a.extractLsb' 0 7 ++ 0#9)
      [0xFF#8, 0x58#8, a.extractLsb' 15 8, a.extractLsb' 7 8, a.extractLsb' 0 7 ++ 0#1, 0#8, 0x95#8, 0xFF#8]
      answers))

/-- The command byte of every index, 0 to 63, is `0x40 | index`, and lies in `0x40` to `0x7F` (R82). -/
def Obligations.CommandByteIsFlagOrIndex : Prop :=
  ∀ (index : BitVec 6) (hi lo : Half), index.toNat ≤ 63 ∧
    ∃ b, (frameBytes index hi lo)[1]? = some b ∧ b = 0x40#8 ||| index.setWidth 8 ∧ b.toNat = 0x40 + index.toNat ∧
      0x40 ≤ b.toNat ∧ b.toNat ≤ 0x7F

/-- The byte offset is `address × 512 mod 2^32`; its nine low bits are zero; addresses `2^23` apart name the same offset
(R56, decision D8; log entry 19). -/
def Obligations.ByteOffsetWraps : Prop :=
  ∀ a : Addr, (byteOffset a).toNat = a.toNat * 512 % 2 ^ 32 ∧ (byteOffset a).extractLsb' 0 9 = 0#9 ∧
    byteOffset (a + 0x00800000#32) = byteOffset a

/-! ### The Response Decoder -/

/-- READ_R1 returns the first answer that is not `0xFF`, or `0xFF` after eight; it makes as many exchanges as it takes,
writes `R1`, and changes nothing else; any eight answers begin with those of one READ_R1 (R140, R141). The value `POLL` keeps is log
entry 26; the return port and the run in one step are log entry 10. -/
def Obligations.ReadR1ReturnsTheFirstResponse : Prop :=
  (∀ (s : State) (answers : List Byte) (r : Byte), Polled answers r → s.Supplies answers →
    exec .readR1 s = .next
      { s.skip answers.length with
        poll := BitVec.ofNat 4 answers.length, r1 := r, returned := .byte r
        trace := (exchanges (idleBytes answers.length) answers).reverse ++ s.trace }) ∧
  ∀ answers : List Byte, answers.length = 8 → ∃ n r, 1 ≤ n ∧ n ≤ 8 ∧ Polled (answers.take n) r

/-- READ_R2 is READ_R1 for the high byte and one unconditional exchange for the low byte (R144, decision D31). The value `POLL` keeps
is log entry 26; the return port and the run in one step are log entry 10. -/
def Obligations.ReadR2ComposesHighAndLow : Prop :=
  ∀ (s : State) (answers : List Byte) (high low : Byte), Polled answers high → s.Supplies (answers ++ [low]) →
    exec .readR2 s = .next
      { s.skip (answers.length + 1) with
        poll := BitVec.ofNat 4 answers.length, r1 := high, r2 := high ++ low, returned := .word (high ++ low)
        trace := (exchanges (idleBytes (answers.length + 1)) (answers ++ [low])).reverse ++ s.trace }

/-- The two whole-byte R1 values are delivered as responses: `R1` takes them and they are returned (R91; the model's reading,
log entry 12). -/
def Obligations.R1ValuesAreDelivered : Prop :=
  ∀ s : State, exec .r1NoResponse s = .next { s with r1 := 0xFF#8, returned := .byte 0xFF#8 } ∧
    exec .r1Ready s = .next { s with r1 := 0x00#8, returned := .byte 0x00#8 }

/-- The markers are one exchange each; the idle byte's answer is returned (log entry 10), the token's is discarded (R102). -/
def Obligations.MarkersAreOneExchange : Prop :=
  ∀ (s : State) (i : Byte), s.Supplies [i] →
    exec .idle s = .next { s.skip 1 with returned := .byte i, trace := .xchg 0xFF#8 i :: s.trace } ∧
    exec .dataStartToken s = .next { s.skip 1 with trace := .xchg 0xFE#8 i :: s.trace }

/-! ### The Error Classifier -/

/-- CLASSIFY_R1 over all 256 bytes, and each of its arms: seven named conditions by whole-byte equality, `Unknown` with the
raw byte for the rest; only the return port changes (R155, R156, decision D9; log entry 11). -/
def Obligations.ClassifyR1IsWholeByteEquality : Prop :=
  ∀ s : State,
    (∀ x ∈ r1Arms, exec x.1 s = .next { s with returned := .r1Label x.2.2 } ∧
      exec (.classifyR1 x.2.1) s = .next { s with returned := .r1Label x.2.2 }) ∧
    ∀ b : Byte, (∀ x ∈ r1Arms, b ≠ x.2.1) →
      exec (.classifyR1 b) s = .next { s with returned := .r1Label (.unknown b) } ∧
      exec (.r1Unknown b) s = .next { s with returned := .r1Label (.unknown b) }

/-- CLASSIFY_R2 over all words, and each of its arms: nine table entries by whole-word equality, then the high byte's class,
then `Unknown` with the raw word; only the return port changes (R155, R158, decision D10; log entries 11, 22). -/
def Obligations.ClassifyR2IsTableThenHighByte : Prop :=
  ∀ s : State,
    (∀ x ∈ r2Arms, exec x.1 s = .next { s with returned := .r2Label x.2.2 } ∧
      exec (.classifyR2 x.2.1) s = .next { s with returned := .r2Label x.2.2 }) ∧
    ∀ high low : Byte, (∀ x ∈ r2Arms, high ++ low ≠ x.2.1) →
      (high ≠ 0#8 →
        exec (.classifyR2 (high ++ low)) s = .next { s with returned := .r2Label (.ofR1 (classR1 high)) } ∧
        exec (.r2DelegateR1 high low) s = .next { s with returned := .r2Label (.ofR1 (classR1 high)) }) ∧
      (high = 0#8 →
        exec (.classifyR2 (high ++ low)) s = .next { s with returned := .r2Label (.unknown (high ++ low)) } ∧
        exec (.r2Unknown low) s = .next { s with returned := .r2Label (.unknown (high ++ low)) })

/-! ### Results and diagnostics -/

/-- `return` and each `raise`. Where the operation in progress has that end, with a value that reaches it (R100, R176, R200, R220,
R240), `RESULT` is written, `PHASE` is `Idle`, `BUSY` is 0, INITIALIZE's ends also set `INIT_STATE`, and nothing else changes (R11,
R256, D5); anywhere else nothing changes at all (R29, R187). That a result row acts so is log entry 13. -/
def Obligations.ResultRowsEndTheOperation : Prop :=
  ∀ (s : State) (info : Half),
    exec (.resultOk info) s = .next
      (if s.busy = true ∧ s.phase = .idle ∧ (s.op = 0#3 ∨ s.op = 4#3) then s.ended (.ok info)
       else if s.busy = true ∧ (s.phase = .rCrc ∨ s.phase = .wBusy) ∧ info = 0#16 then s.ended (.ok 0#16)
       else if s.busy = true ∧ s.phase = .iStatusLo ∧ info = 0#16 then { s.ended (.ok 0#16) with initState := .ready }
       else s) ∧
    exec (.resultNoResponse info) s = .next
      (if s.busy = true ∧ s.phase = .iResetResp then
        { s.ended (.err (.init .noResponse)) with initState := .failed .noResponse }
       else s) ∧
    exec (.resultUnexpectedResetResponse info) s = .next
      (if s.busy = true ∧ s.phase = .iResetResp ∧ info.extractLsb' 0 8 ≠ 0x01#8 ∧ info.extractLsb' 0 8 ≠ 0xFF#8 then
        { s.ended (.err (.init (.unexpectedResetResponse (info.extractLsb' 0 8)))) with
          initState := .failed (.unexpectedResetResponse (info.extractLsb' 0 8)) }
       else s) ∧
    exec (.resultCardNotReady info) s = .next
      (if s.busy = true ∧ s.phase = .iOpCondResp ∧ info.extractLsb' 0 8 ≠ 0x00#8 then
        { s.ended (.err (.init (.cardNotReady (info.extractLsb' 0 8)))) with
          initState := .failed (.cardNotReady (info.extractLsb' 0 8)) }
       else s) ∧
    exec (.resultStatusNotReady info) s = .next
      (if s.busy = true ∧ s.phase = .iStatusLo ∧ info ≠ 0x0000#16 then
        { s.ended (.err (.init (.statusNotReady info))) with initState := .failed (.statusNotReady info) }
       else s) ∧
    exec (.resultProtocolError info) s = .next
      (if s.busy = true ∧ (s.phase = .rToken ∨
          (s.phase = .wAck ∧ s.writeAckMode = .strict ∧ info.extractLsb' 0 8 ≠ 0x00#8)) then
        s.ended (.err (.io (.protocolError (info.extractLsb' 0 8))))
       else s) ∧
    exec (.resultFramingError info) s = .next
      (if s.busy = true ∧ s.phase = .rToken then s.ended (.err (.io .framingError)) else s) ∧
    exec (.resultBusyTimeout info) s = .next
      (if s.busy = true ∧ s.phase = .wBusy ∧ s.busyBound ≠ none then s.ended (.err (.io .busyTimeout)) else s)

/-- Where a well-formed result row ends the operation in progress, the word of `RESULT` that the host reads afterwards is the row's own
word, `status` and `info` as R100 gives them (decision D13); with no operation in progress no result row changes anything (R29,
R187; log entry 13). -/
def Obligations.ResultWordReadsBack : Prop :=
  ∀ (i : Instr) (s : State), i.wellFormed = true → i.selector = .result →
    (∀ t, exec i s = .next t → t ≠ s →
      ∃ status info, t.result.word = some (status, info) ∧ i.body = resultBytes status info ∧ t.busy = false) ∧
    (s.busy = false → exec i s = .next s)

/-- A DIAGEVT row presented on its own delivers its event to the sink if there is one, always completes, and changes nothing else. That
such a row is an instruction that delivers its event is the model's choice (log entry 30); that an event without a sink does nothing,
and that it always completes, is R162; the form of an event is R101 (decision D14). -/
def Obligations.DiagnosticEventsOnlyReachTheSink : Prop :=
  ∀ (s : State) (l1 : R1Label) (b : Byte) (l2 : R2Label) (w : Half),
    exec (.diagR1Class l1 b) s = .next { s with diag := if s.sink then .r1Class l1 b :: s.diag else s.diag } ∧
    exec (.diagR2Class l2 w) s = .next { s with diag := if s.sink then .r2Class l2 w :: s.diag else s.diag }

/-! ### Host requests -/

/-- An accepted request starts its operation: `BUSY`, `OP`, for a sector operation `ADDR` and the frame latches of its
command, for INITIALIZE `INIT_STATE`, and the first phase (R24, R27, R29, D4; log entries 5, 27; `BYTE` starts at 0: log entry 26). -/
def Obligations.RequestsStartTheirOperation : Prop :=
  ∀ (s : State) (x : BitVec 32) (a : Addr), s.busy = false →
    exec (.initializeCard x) s
      = .next { s with busy := true, op := 1#3, initState := .powerOn, phase := .iXportInit } ∧
    exec (.readSector a) s
      = .next { s with busy := true, op := 2#3, addr := a, phase := .rCmd, idxCmd := 17#6, byte := 0#10
                       argHi := (byteOffset a).extractLsb' 16 16, argLo := (byteOffset a).extractLsb' 0 16 } ∧
    exec (.writeSector a) s
      = .next { s with busy := true, op := 3#3, addr := a, phase := .wCmd, idxCmd := 24#6, byte := 0#10
                       argHi := (byteOffset a).extractLsb' 16 16, argLo := (byteOffset a).extractLsb' 0 16 }

/-- The control operations complete in one step with a free value, make no transaction, and write `OP`, `RESULT` and `BUSY`
only (R240, R241, D17; the value is free, log entry 3). -/
def Obligations.ControlOperationsSucceedAtOnce : Prop :=
  ∀ (s : State) (x : BitVec 32), s.busy = false →
    exec (.controlNoop x) s
      = .next { s.ended (.ok (Config.controlValue s.draws)) with op := 0#3, draws := s.draws + 1 } ∧
    exec (.controlQuerySectorCount x) s
      = .next { s.ended (.ok (Config.controlValue s.draws)) with op := 4#3, draws := s.draws + 1 }

/-- A request presented while `BUSY = 1` has no effect at all (R267, D7; log entry 9). -/
def Obligations.RequestWhileBusyHasNoEffect : Prop :=
  ∀ (s : State) (op : BitVec 3) (a : Addr), s.busy = true → exec (hostInstr op a) s = .next s

/-- Codes 5, 6 and 7 name no operation: no transaction, every register unchanged (R98, D32; log entry 8). -/
def Obligations.ReservedCodesHaveNoEffect : Prop :=
  ∀ (s : State) (x : BitVec 32), exec (.hostReqReserved5 x) s = .next s ∧ exec (.hostReqReserved6 x) s = .next s ∧
    exec (.hostReqReserved7 x) s = .next s

/-! ### Whole operations -/

/-- READ_SECTOR with acknowledgment `0x00` and token `0xFE`: after as many exchanges as the card takes, the buffer holds the
512 payload bytes, the two checksum bytes are discarded whatever they are, the result is `Ok(())` (R200, R207, R208). One step an
exchange is log entry 5; the values that `CNT`, `POLL` and `BYTE` keep are log entry 26. -/
def Obligations.ReadSectorDeliversThePayload : Prop :=
  ∀ (s : State) (a : Addr) (frame polls payload : List Byte) (m : Nat) (c1 c2 : Byte),
    s.busy = false → s.HostWaits → Memory.wf s.buf = true → frame.length = 8 → Polled polls 0x00#8 → m < 65535 →
    payload.length = 512 → s.Supplies (frame ++ polls ++ (idleBytes m ++ [0xFE#8]) ++ payload ++ [c1, c2]) →
      ∃ u t, exec (.readSector a) s = .next u ∧ Runs (8 + polls.length + (m + 1) + 514) u t ∧
        Memory.bytes t.buf = payload ∧ (∀ i, 512 ≤ i → Memory.read t.buf i = Memory.read s.buf i) ∧
        t = { (s.skip (8 + polls.length + (m + 1) + 514)).ended (.ok 0#16) with
              op := 2#3, addr := a, idxCmd := 17#6, argHi := offsetHi a, argLo := offsetLo a, cnt := m + 1
              poll := BitVec.ofNat 4 polls.length, byte := 2#10, r1 := 0x00#8, ack := 0x00#8, tok := 0xFE#8
              buf := t.buf
              trace := (exchanges (frameBytes 17#6 (offsetHi a) (offsetLo a)
                  ++ idleBytes (polls.length + (m + 1) + 514))
                (frame ++ polls ++ (idleBytes m ++ [0xFE#8]) ++ payload ++ [c1, c2])).reverse ++ s.trace }

/-- READ_SECTOR whose acceptance test fails: no exchange is made after the token poll, the buffer is unchanged, one event is
delivered, and the failure is `FramingError` on a timeout, else the bad acknowledgment's, else the wrong token's (R206,
decision D12). -/
def Obligations.ReadSectorFailsBeforeAnyPayload : Prop :=
  ∀ (s : State) (a : Addr) (frame polls tokens : List Byte) (ack tok : Byte),
    s.busy = false → s.HostWaits → frame.length = 8 → Polled polls ack → TokenPolled tokens tok →
    ¬(ack = 0x00#8 ∧ tok = 0xFE#8) → s.Supplies (frame ++ polls ++ tokens) →
      ∃ u, exec (.readSector a) s = .next u ∧
        Runs (8 + polls.length + tokens.length) u
          { (s.skip (8 + polls.length + tokens.length)).ended (.err (.io (readFailure ack tok).1)) with
            op := 2#3, addr := a, idxCmd := 17#6, argHi := offsetHi a, argLo := offsetLo a, cnt := tokens.length
            poll := BitVec.ofNat 4 polls.length, byte := 8#10, r1 := ack, ack := ack, tok := tok
            diag := if s.sink then
                .r1Class (classR1 (readFailure ack tok).2) (readFailure ack tok).2 :: s.diag else s.diag
            trace := (exchanges (frameBytes 17#6 (offsetHi a) (offsetLo a)
                ++ idleBytes (polls.length + tokens.length)) (frame ++ polls ++ tokens)).reverse ++ s.trace }

/-- READ_SECTOR always ends, within 66065 exchanges and without an `XportInit`, if every exchange completes. -/
def Obligations.ReadSectorTerminates : Prop :=
  ∀ (s : State) (a : Addr), s.busy = false → s.HostWaits → s.xport.after ≠ .hung →
    ∃ n u t new, n ≤ 66065 ∧ exec (.readSector a) s = .next u ∧ u.busy = true ∧ Runs n u t ∧ t.busy = false ∧
      t.phase = .idle ∧ t.trace = new ++ s.trace ∧ new.length = n ∧ ∀ e ∈ new, e.IsXchg

/-- WRITE_SECTOR in `permissive` mode whatever the acknowledgment, or with acknowledgment `0x00`: token, the 512 buffer bytes
in order and unaltered, two filler bytes, one discarded answer, then busy polls until the first `0xFF`; the result is
`Ok(())` and the buffer is not written (R220, R223, R224, R225, R226, R227; decision D15). One step an exchange is log entry 5; the
values that `CNT`, `POLL` and `BYTE` keep are log entry 26. -/
def Obligations.WriteSectorSendsTheBuffer : Prop :=
  ∀ (s : State) (a : Addr) (frame polls ignored busy : List Byte) (ack : Byte),
    s.busy = false → s.HostWaits → frame.length = 8 → Polled polls ack →
    (s.writeAckMode = .permissive ∨ ack = 0x00#8) → ignored.length = 516 → (∀ b ∈ busy, b ≠ 0xFF#8) →
    (∀ n, s.busyBound = some n → busy.length < n) → s.Supplies (frame ++ polls ++ ignored ++ (busy ++ [0xFF#8])) →
      ∃ u, exec (.writeSector a) s = .next u ∧
        Runs (8 + polls.length + 516 + (busy.length + 1)) u
          { (s.skip (8 + polls.length + 516 + (busy.length + 1))).ended (.ok 0#16) with
            op := 3#3, addr := a, idxCmd := 24#6, argHi := offsetHi a, argLo := offsetLo a, cnt := busy.length + 1
            poll := BitVec.ofNat 4 polls.length, byte := 2#10, r1 := ack, ack := ack
            trace := (exchanges (frameBytes 24#6 (offsetHi a) (offsetLo a) ++ idleBytes polls.length
                ++ writeBlockOuts (Memory.bytes s.buf) (busy.length + 1))
              (frame ++ polls ++ ignored ++ (busy ++ [0xFF#8]))).reverse ++ s.trace }

/-- WRITE_SECTOR in `strict` mode with an acknowledgment other than `0x00` ends there: no token, no payload, one event
(R224, decision D15). -/
def Obligations.StrictWriteStopsAtABadAcknowledgment : Prop :=
  ∀ (s : State) (a : Addr) (frame polls : List Byte) (ack : Byte),
    s.busy = false → s.HostWaits → s.writeAckMode = .strict → frame.length = 8 → Polled polls ack → ack ≠ 0x00#8 →
    s.Supplies (frame ++ polls) →
      ∃ u, exec (.writeSector a) s = .next u ∧
        Runs (8 + polls.length) u
          { (s.skip (8 + polls.length)).ended (.err (.io (.protocolError ack))) with
            op := 3#3, addr := a, idxCmd := 24#6, argHi := offsetHi a, argLo := offsetLo a
            poll := BitVec.ofNat 4 polls.length, byte := 8#10, r1 := ack, ack := ack
            diag := if s.sink then .r1Class (classR1 ack) ack :: s.diag else s.diag
            trace := (exchanges (frameBytes 24#6 (offsetHi a) (offsetLo a) ++ idleBytes polls.length)
              (frame ++ polls)).reverse ++ s.trace }

/-- WRITE_SECTOR with `BUSY_BOUND = n` whose `n` busy polls are all answered other than `0xFF` ends with `BusyTimeout` and no
event (R228, decision D16). -/
def Obligations.BoundedBusyPollTimesOut : Prop :=
  ∀ (s : State) (a : Addr) (frame polls ignored busy : List Byte) (ack : Byte),
    s.busy = false → s.HostWaits → frame.length = 8 → Polled polls ack →
    (s.writeAckMode = .permissive ∨ ack = 0x00#8) → ignored.length = 516 → (∀ b ∈ busy, b ≠ 0xFF#8) →
    0 < busy.length → s.busyBound = some busy.length → s.Supplies (frame ++ polls ++ ignored ++ busy) →
      ∃ u, exec (.writeSector a) s = .next u ∧
        Runs (8 + polls.length + 516 + busy.length) u
          { (s.skip (8 + polls.length + 516 + busy.length)).ended (.err (.io .busyTimeout)) with
            op := 3#3, addr := a, idxCmd := 24#6, argHi := offsetHi a, argLo := offsetLo a, cnt := busy.length
            poll := BitVec.ofNat 4 polls.length, byte := 2#10, r1 := ack, ack := ack
            trace := (exchanges (frameBytes 24#6 (offsetHi a) (offsetLo a) ++ idleBytes polls.length
                ++ writeBlockOuts (Memory.bytes s.buf) busy.length)
              (frame ++ polls ++ ignored ++ busy)).reverse ++ s.trace }

/-- With `BUSY_BOUND = none` and a line that never answers `0xFF`, the busy poll goes on for any number of steps: every step
is enabled and the operation does not end (R228, R263). One transaction a step is log entry 5. -/
def Obligations.UnboundedBusyPollNeverEnds : Prop :=
  ∀ (s : State) (n : Nat), s.busy = true → s.phase = .wBusy → s.busyBound = none → s.HostWaits →
    (∀ k, k < n → ∃ b, s.answerAt k = some b ∧ b ≠ 0xFF#8) →
      ∃ t, Runs n s t ∧ t.busy = true ∧ t.phase = .wBusy ∧ t.result = s.result ∧
        t.trace.length = s.trace.length + n

/-- WRITE_SECTOR with a bound always ends, within 532 exchanges and the bound and without an `XportInit`, if every exchange
completes. -/
def Obligations.BoundedWriteTerminates : Prop :=
  ∀ (s : State) (a : Addr) (bound : Nat), s.busy = false → s.HostWaits → s.xport.after ≠ .hung →
    s.busyBound = some bound → 0 < bound →
      ∃ n u t new, n ≤ 532 + bound ∧ exec (.writeSector a) s = .next u ∧ u.busy = true ∧ Runs n u t ∧ t.busy = false ∧
        t.phase = .idle ∧ t.trace = new ++ s.trace ∧ new.length = n ∧ ∀ e ∈ new, e.IsXchg

/-- Round trip: what a write sends as its payload, received later as the payload of a read, leaves the reader's buffer equal
to the writer's, and both commands carry the same offset (R232). What the card does is a hypothesis. One step an exchange is log
entry 5. -/
def Obligations.WriteThenReadRoundTrip : Prop :=
  ∀ (s r : State) (a : Addr) (f1 p1 ignored busy f2 p2 payload : List Byte) (ack : Byte) (m : Nat) (c1 c2 : Byte),
    Memory.wf s.buf = true → s.busy = false → s.HostWaits → f1.length = 8 → Polled p1 ack →
    (s.writeAckMode = .permissive ∨ ack = 0x00#8) → ignored.length = 516 → (∀ b ∈ busy, b ≠ 0xFF#8) →
    (∀ n, s.busyBound = some n → busy.length < n) → s.Supplies (f1 ++ p1 ++ ignored ++ (busy ++ [0xFF#8])) →
      ∃ u t, exec (.writeSector a) s = .next u ∧ Runs (8 + p1.length + 516 + (busy.length + 1)) u t ∧
        t.result = .ok 0#16 ∧
        (Memory.wf r.buf = true → r.busy = false → r.HostWaits → f2.length = 8 → Polled p2 0x00#8 → m < 65535 →
          payload = ((newOuts s.trace t.trace).drop (8 + p1.length + 1)).take 512 →
          r.Supplies (f2 ++ p2 ++ (idleBytes m ++ [0xFE#8]) ++ payload ++ [c1, c2]) →
            ∃ v w, exec (.readSector a) r = .next v ∧ Runs (8 + p2.length + (m + 1) + 514) v w ∧
              w.result = .ok 0#16 ∧ w.buf = s.buf ∧ w.argHi = t.argHi ∧ w.argLo = t.argLo)

/-- RDBLOCK in an operation that waits for its data block: the token poll, and after a token behind acknowledgment `0x00` the payload
and the checksum bytes; a failed acceptance test ends the operation before any payload; in any other place nothing happens (R96,
R203 to R208, R306; log entries 10, 14, 26). -/
def Obligations.RdblockDeliversThePayload : Prop :=
  (∀ (s : State) (payload : List Byte) (m : Nat) (c1 c2 : Byte),
    s.busy = true → s.phase = .rToken → s.cnt = 0 → s.ack = 0x00#8 → Memory.wf s.buf = true → m < 65535 →
    payload.length = 512 → s.Supplies ((idleBytes m ++ [0xFE#8]) ++ payload ++ [c1, c2]) →
      ∃ t, exec .rdblock s = .next t ∧ Memory.bytes t.buf = payload ∧
        t = { (s.skip ((m + 1) + 514)).ended (.ok 0#16) with
              cnt := m + 1, byte := 2#10, tok := 0xFE#8, buf := t.buf
              trace := (exchanges (idleBytes ((m + 1) + 514))
                ((idleBytes m ++ [0xFE#8]) ++ payload ++ [c1, c2])).reverse ++ s.trace }) ∧
  (∀ (s : State) (tokens : List Byte) (tok : Byte),
    s.busy = true → s.phase = .rToken → s.cnt = 0 → TokenPolled tokens tok → ¬(s.ack = 0x00#8 ∧ tok = 0xFE#8) →
    s.Supplies tokens →
      exec .rdblock s = .next
        { (s.skip tokens.length).ended (.err (.io (readFailure s.ack tok).1)) with
          cnt := tokens.length, tok := tok
          diag := if s.sink then
              .r1Class (classR1 (readFailure s.ack tok).2) (readFailure s.ack tok).2 :: s.diag else s.diag
          trace := (exchanges (idleBytes tokens.length) tokens).reverse ++ s.trace }) ∧
  ∀ s : State, ¬(s.busy = true ∧ s.phase = .rToken) → exec .rdblock s = .next s

/-- WRBLOCK in an operation that is about to send its data block: the token, the buffer, the filler checksum and the discarded byte in
one step, and then, one a step, the busy polls until the line is released; in any other place nothing happens (R97, R225 to R227,
R306; log entries 10, 14, 26). -/
def Obligations.WrblockSendsTheBuffer : Prop :=
  (∀ (s : State) (ignored busy : List Byte),
    s.busy = true → s.phase = .wToken → s.HostWaits → ignored.length = 516 → (∀ b ∈ busy, b ≠ 0xFF#8) →
    (∀ n, s.busyBound = some n → busy.length < n) → s.Supplies (ignored ++ (busy ++ [0xFF#8])) →
      ∃ u, exec .wrblock s = .next u ∧
        u = { s.skip 516 with
              phase := .wBusy, cnt := 0, byte := 2#10
              trace := (exchanges ([0xFE#8] ++ Memory.bytes s.buf ++ [0xFF#8, 0xFF#8, 0xFF#8]) ignored).reverse ++ s.trace } ∧
        Runs (busy.length + 1) u
          { (s.skip (516 + (busy.length + 1))).ended (.ok 0#16) with
            cnt := busy.length + 1, byte := 2#10
            trace := (exchanges (writeBlockOuts (Memory.bytes s.buf) (busy.length + 1))
              (ignored ++ (busy ++ [0xFF#8]))).reverse ++ s.trace }) ∧
  ∀ s : State, ¬(s.busy = true ∧ s.phase = .wToken) → exec .wrblock s = .next s

/-- INITIALIZE succeeds: up to 511 attempts of CMD0 not answered `0x01`, one that is; up to 31999 attempts of CMD1 not
answered `0x00`, one that is; then R2 `0x0000` to CMD13. One `init` comes first, `INIT_STATE` is `Ready`, the result is
`Ok(())`, and one event is delivered for every response of the second stage that is not `0x00` (R176, decision D14). -/
def Obligations.InitializeReachesReady : Prop :=
  ∀ (s : State) (x : BitVec 32) (as bs : List Attempt) (a b : Attempt) (frame polls : List Byte),
    s.busy = false → s.HostWaits → s.xport.inits ≠ some 0 → as.length < 512 →
    (∀ y ∈ as, y.Valid ∧ y.response ≠ 0x01#8) → a.Valid →
    a.response = 0x01#8 → bs.length < 32000 → (∀ y ∈ bs, y.Valid ∧ y.response ≠ 0x00#8) → b.Valid →
    b.response = 0x00#8 → frame.length = 8 → Polled polls 0x00#8 →
    s.Supplies (attemptAnswers (as ++ [a]) ++ attemptAnswers (bs ++ [b]) ++ (frame ++ polls ++ [0x00#8])) →
      ∃ u n, exec (.initializeCard x) s = .next u ∧
        n = (attemptAnswers (as ++ [a])).length + (attemptAnswers (bs ++ [b])).length + (8 + polls.length + 1) ∧
        Runs (1 + n) u
          { (s.countInit.skip n).ended (.ok 0#16) with
            op := 1#3, idxCmd := 13#6, argHi := 0#16, argLo := 0#16, cnt := bs.length + 1
            poll := BitVec.ofNat 4 polls.length, byte := 8#10, r1 := 0x00#8, r2 := 0x0000#16, initState := .ready
            diag := if s.sink then attemptEvents bs ++ s.diag else s.diag
            trace := (.init :: (attemptExchanges 0#6 (as ++ [a]) ++ attemptExchanges 1#6 (bs ++ [b])
              ++ exchanges (frameBytes 13#6 0#16 0#16 ++ idleBytes (polls.length + 1))
                (frame ++ polls ++ [0x00#8]))).reverse ++ s.trace }

/-- INITIALIZE fails in its first stage after exactly 512 attempts not answered `0x01`: with `NoResponse` and no event if the
last response is `0xFF`, otherwise with `UnexpectedResetResponse` of the last response and one event (R180, decision
D14). -/
def Obligations.ResetStageFailsAfter512Attempts : Prop :=
  ∀ (s : State) (x : BitVec 32) (as : List Attempt) (a : Attempt),
    s.busy = false → s.HostWaits → s.xport.inits ≠ some 0 → as.length = 511 →
    (∀ y ∈ as ++ [a], y.Valid ∧ y.response ≠ 0x01#8) →
    s.Supplies (attemptAnswers (as ++ [a])) →
      ∃ u f, exec (.initializeCard x) s = .next u ∧
        f = (if a.response = 0xFF#8 then InitFailure.noResponse else .unexpectedResetResponse a.response) ∧
        Runs (1 + (attemptAnswers (as ++ [a])).length) u
          { (s.countInit.skip (attemptAnswers (as ++ [a])).length).ended (.err (.init f)) with
            op := 1#3, idxCmd := 0#6, argHi := 0#16, argLo := 0#16, cnt := 512
            poll := BitVec.ofNat 4 a.polls.length, byte := 8#10, r1 := a.response, initState := .failed f
            diag := if s.sink = true ∧ a.response ≠ 0xFF#8 then
                .r1Class (classR1 a.response) a.response :: s.diag else s.diag
            trace := (.init :: attemptExchanges 0#6 (as ++ [a])).reverse ++ s.trace }

/-- INITIALIZE fails in its second stage after exactly 32000 attempts not answered `0x00`, with `CardNotReady` of the last
response and one event for every attempt (R181, R182, R183, decision D14). -/
def Obligations.OpCondStageFailsAfter32000Attempts : Prop :=
  ∀ (s : State) (x : BitVec 32) (as bs : List Attempt) (a b : Attempt),
    s.busy = false → s.HostWaits → s.xport.inits ≠ some 0 → as.length < 512 →
    (∀ y ∈ as, y.Valid ∧ y.response ≠ 0x01#8) → a.Valid →
    a.response = 0x01#8 → bs.length = 31999 → (∀ y ∈ bs ++ [b], y.Valid ∧ y.response ≠ 0x00#8) →
    s.Supplies (attemptAnswers (as ++ [a]) ++ attemptAnswers (bs ++ [b])) →
      ∃ u n, exec (.initializeCard x) s = .next u ∧
        n = (attemptAnswers (as ++ [a])).length + (attemptAnswers (bs ++ [b])).length ∧
        Runs (1 + n) u
          { (s.countInit.skip n).ended (.err (.init (.cardNotReady b.response))) with
            op := 1#3, idxCmd := 1#6, argHi := 0#16, argLo := 0#16, cnt := 32000
            poll := BitVec.ofNat 4 b.polls.length, byte := 8#10, r1 := b.response
            initState := .failed (.cardNotReady b.response)
            diag := if s.sink then attemptEvents (bs ++ [b]) ++ s.diag else s.diag
            trace := (.init :: (attemptExchanges 0#6 (as ++ [a]) ++ attemptExchanges 1#6 (bs ++ [b]))).reverse
              ++ s.trace }

/-- INITIALIZE's status check fails on any R2 but `0x0000`, with `StatusNotReady` of the word and one event; stated from the
start of its third stage, which has no retry (R184, R185). One step an exchange is log
entry 5; the values that `POLL` and `BYTE` keep are log entry 26. -/
def Obligations.StatusCheckFailsOnAnyOtherWord : Prop :=
  ∀ (s : State) (frame polls : List Byte) (high low : Byte),
    s.busy = true → s.HostWaits → s.phase = .iStatusCmd → s.byte = 0#10 → s.FrameFits → frame.length = 8 →
    Polled polls high → high ++ low ≠ 0x0000#16 → s.Supplies (frame ++ polls ++ [low]) →
      Runs (8 + polls.length + 1) s
        { (s.skip (8 + polls.length + 1)).ended (.err (.init (.statusNotReady (high ++ low)))) with
          poll := BitVec.ofNat 4 polls.length, byte := 8#10, r1 := high, r2 := high ++ low
          initState := .failed (.statusNotReady (high ++ low))
          diag := if s.sink then .r2Class (classR2 (high ++ low)) (high ++ low) :: s.diag else s.diag
          trace := (exchanges (frameBytes 13#6 0#16 0#16 ++ idleBytes (polls.length + 1))
            (frame ++ polls ++ [low])).reverse ++ s.trace }

/-- A silent card: INITIALIZE fails with `NoResponse` after exactly one `init` and the 8192 exchanges of 512 attempts that are answered
with idle bytes only (R178, R180, R188). -/
def Obligations.SilentCardGivesNoResponse : Prop :=
  ∀ (s : State) (x : BitVec 32), s.busy = false → s.HostWaits → s.xport.inits ≠ some 0 →
    (∀ k, k < 8192 → s.answerAt k = some 0xFF#8) →
      ∃ u t, exec (.initializeCard x) s = .next u ∧ Runs 8193 u t ∧ t.busy = false ∧
        t.result = .err (.init .noResponse) ∧ t.initState = .failed .noResponse ∧ t.buf = s.buf ∧ t.diag = s.diag ∧
        t.trace = (.init :: attemptExchanges 0#6 (List.replicate 512 Attempt.silent)).reverse ++ s.trace ∧
        (attemptExchanges 0#6 (List.replicate 512 Attempt.silent)).length = 8192

/-- INITIALIZE always ends, within exactly one `init`, which comes first, and 520209 exchanges, if every transaction completes
(R188). -/
def Obligations.InitializeTerminates : Prop :=
  ∀ (s : State) (x : BitVec 32), s.busy = false → s.HostWaits → s.Completes →
    ∃ n u t new, n ≤ 520209 ∧ exec (.initializeCard x) s = .next u ∧ u.busy = true ∧ Runs (1 + n) u t ∧ t.busy = false ∧
      t.phase = .idle ∧ t.trace = new ++ .init :: s.trace ∧ new.length = n ∧ (∀ e ∈ new, e.IsXchg) ∧
      (t.initState = .ready ∨ ∃ f, t.initState = .failed f ∧ t.result = .err (.init f))

/-! ### Invariants and whole-machine rules -/

/-- The state after reset is one the block can be in. -/
def Obligations.ResetStateMeetsTheInvariant : Prop := State.reset.Inv

/-- Every step leads from a state the block can be in to another: the buffer stays canonical, `BUSY` agrees with `PHASE`, `OP`
with the operation, every counter stays below its ceiling, the frame latches hold the phase's command, `INIT_STATE` the
stage, and a payload is received only after the acceptance test. That a counter counts up to its ceiling is log entry
26, and what `OP`, `ADDR` and the latches hold from the acceptance on is log entries 5 and 27. -/
def Obligations.StepKeepsTheInvariant : Prop :=
  ∀ s t : State, s.Inv → step s = .next t → t.Inv

/-- The only fault of a state the block can be in is a transaction that never completes, and then the transport is one that does not
complete every transaction (R261, R262). -/
def Obligations.OnlyAHungTransportFaults : Prop :=
  ∀ (s : State) (f : Fault), s.Inv → step s = .fault f →
    f = .transportNeverCompletes ∧ (s.xport.after = .hung ∨ (s.phase = .iXportInit ∧ s.xport.inits = some 0))

/-- While an operation runs, a transaction that the transport never completes leaves no later step, in any phase, whichever of the two
operations it is (R261, R262, decision D19; log entry 2). -/
def Obligations.UncompletedTransactionStopsTheOperation : Prop :=
  ∀ s : State, s.Inv → s.busy = true → s.HostWaits →
    (s.phase = .iXportInit ∧ s.xport.inits = some 0) ∨ (s.phase ≠ .iXportInit ∧ s.answerAt 0 = none) →
      step s = .fault .transportNeverCompletes

/-- An operation in progress always makes its next step when the transport completes every transaction and the host leaves the buffer
alone (R67, R261). -/
def Obligations.RunningOperationIsNeverStuck : Prop :=
  ∀ s : State, s.Inv → s.busy = true → s.Completes → (∀ index value rest, s.host ≠ .storeBuffer index value :: rest) →
    ∃ t, step s = .next t

/-- Every transition of `INIT_STATE`, in any step and by any instruction presented in any place, is one of R187's: those of a running
INITIALIZE, and `PowerOn` when an INITIALIZE is accepted or the block is reset. -/
def Obligations.InitStateFollowsItsTransitions : Prop :=
  (∀ s t : State, s.Inv → step s = .next t →
    InitTransition s.initState t.initState ∨
      (t.initState = .powerOn ∧ ((s.busy = false ∧ t.busy = true ∧ t.phase = .iXportInit) ∨
        ∃ line rest, s.host = .reset line :: rest))) ∧
  ∀ (i : Instr) (s t : State), s.Inv → exec i s = .next t →
    InitTransition s.initState t.initState ∨
      (t.initState = .powerOn ∧ s.busy = false ∧ ∃ x, i = .initializeCard x)

/-- READ_SECTOR and WRITE_SECTOR neither write `INIT_STATE` nor call `XportInit` (R177, R187). That each step of theirs makes exactly
one exchange is log entry 5. -/
def Obligations.SectorOperationsLeaveInitState : Prop :=
  ∀ s t : State, s.phase.opCode = some 2#3 ∨ s.phase.opCode = some 3#3 → sequence s = .next t →
    t.initState = s.initState ∧ ∃ o i, t.trace = .xchg o i :: s.trace

/-- A step of a running operation makes exactly one transaction, `XportInit` in its one phase and an exchange in every other,
answered by the transport's next answer; earlier elements of the trace stay (R33, R66). -/
def Obligations.OneTransactionPerStep : Prop :=
  ∀ s t : State, s.phase ≠ .idle → sequence s = .next t →
    (s.phase = .iXportInit ∧ t.trace = .init :: s.trace ∧ t.xport = s.countInit.xport ∧ t.draws = s.draws) ∨
    (s.phase ≠ .iXportInit ∧ ∃ o i, s.answerAt 0 = some i ∧ t.trace = .xchg o i :: s.trace ∧
      t.xport = s.consume.xport ∧ t.draws = s.consume.draws)

/-- A step of a running operation writes the buffer only in `R_Data`, only at index `BYTE`, and there the byte received (R52,
R53, R54). That the byte is received and stored in one step is
log entry 5, and that `BYTE` is the index, counted from 0, is log entry 26. -/
def Obligations.OnlyReceivedPayloadIsStored : Prop :=
  ∀ s t : State, Memory.wf s.buf = true → sequence s = .next t →
    (s.phase ≠ .rData → t.buf = s.buf) ∧
    (s.phase = .rData → (∀ a, a ≠ s.byte.toNat → Memory.read t.buf a = Memory.read s.buf a) ∧
      some (Memory.read t.buf s.byte.toNat) = s.answerAt 0)

/-- `RESULT` is written exactly when an operation ends, and `BUSY` and `PHASE` say so (R29). -/
def Obligations.ResultIsWrittenAtTheEndOnly : Prop :=
  ∀ s t : State, s.busy = true → s.phase ≠ .idle → sequence s = .next t →
    (t.busy = true ∧ t.phase ≠ .idle ∧ t.result = s.result) ∨ (t.busy = false ∧ t.phase = .idle ∧ t.result ≠ .none)

/-- What was latched with the request, the configuration, the sink, the return port and the host's pending moves stay as they are while
an operation runs (R24, R30). -/
def Obligations.LatchedOperandsStay : Prop :=
  ∀ s t : State, sequence s = .next t → t.op = s.op ∧ t.addr = s.addr ∧ t.writeAckMode = s.writeAckMode ∧
    t.busyBound = s.busyBound ∧ t.sink = s.sink ∧ t.returned = s.returned ∧ t.host = s.host

/-- In each of the five phases that send a frame, the byte sent is byte `BYTE` of exactly the frame of the phase's command (R27, R85,
R86, R128), and `BYTE` counts on, so that a whole phase sends that one frame. That `BYTE` selects the frame's bytes from 0 to 7 is log
entry 26, and one byte a step is log entry 5. -/
def Obligations.CommandPhaseSendsItsOwnFrame : Prop :=
  ∀ (s t : State) (frame : List Byte), s.Inv → s.phaseFrame = some frame → sequence s = .next t →
    (∃ o i, frame[s.byte.toNat]? = some o ∧ s.frameByte s.byte.toNat = o ∧ t.trace = .xchg o i :: s.trace) ∧
      ((t.phase = s.phase ∧ t.byte = s.byte + 1#10 ∧ t.addr = s.addr ∧ s.byte ≠ 7#10) ∨
        (t.phase ≠ s.phase ∧ s.byte = 7#10))

/-- Whether a diagnostic sink is attached, and what it holds of earlier events, changes nothing but the sink's own history, in any step
of any state: not the outcome of the step, the trace, a register or the result (R257). -/
def Obligations.DiagnosticsNeverChangeAnythingElse : Prop :=
  ∀ s : State, mapNext State.withoutDiagnostics (step s)
    = mapNext State.withoutDiagnostics (step s.withoutDiagnostics)

/-- No step of any state reads `INIT_STATE`, `RESULT`, the histories or the return port: what an earlier operation left there
has no effect (R21, R28, R29, R33). -/
def Obligations.EarlierOutcomesHaveNoEffect : Prop :=
  ∀ s : State, mapNext State.withoutHistory (step s) = mapNext State.withoutHistory (step s.withoutHistory)

/-- Two buffers in canonical form with the same bytes are the same data (log entry 16). -/
def Obligations.CanonicalBuffersWithEqualBytesAreEqual : Prop :=
  ∀ m m' : Memory, Memory.wf m = true → Memory.wf m' = true → (∀ a, Memory.read m a = Memory.read m' a) → m = m'
end

