-- ==== Sys2Proof/Laws/Memory.lean ====
section
/-! SUPPORT. The laws of the caller's buffer: a read after a write, and the canonical form. -/

namespace Sys2Proof.Machine

/-- A read at the written index gives the written byte. -/
@[simp] theorem Memory.read_write_same (m : Memory) (a : Nat) (v : Byte) :
    Memory.wf m = true → Memory.read (Memory.write m a v) a = v := by
  have go : ∀ (m : Memory) (lo : Nat), Memory.wfFrom lo m = true → Memory.read (Memory.write m a v) a = v := by
    intro m
    induction m with
    | nil => intro lo _; by_cases h : v = Memory.unlisted <;> simp [Memory.write, Memory.read, h]
    | cons kv m ih =>
      obtain ⟨k, w⟩ := kv
      intro lo h
      simp only [Memory.wfFrom, Bool.and_eq_true, decide_eq_true_eq] at h
      have past : ∀ (m : Memory) (lo : Nat), a < lo → Memory.wfFrom lo m = true →
          Memory.read m a = Memory.unlisted := by
        intro m
        induction m with
        | nil => intros; rfl
        | cons kv m ih =>
          obtain ⟨k, w⟩ := kv
          intro lo hl h
          simp only [Memory.wfFrom, Bool.and_eq_true, decide_eq_true_eq] at h
          have : k ≠ a := by omega
          simp only [Memory.read, if_neg this]
          exact ih (k + 1) (by omega) h.2
      unfold Memory.write
      split
      · next hlt =>
        have hk : k ≠ a := by omega
        split
        · next hv => simp only [Memory.read, if_neg hk, hv]; exact past m (k + 1) (by omega) h.2
        · simp [Memory.read]
      · split
        · next heq =>
          subst heq
          split
          · next hv => rw [hv]; exact past m (a + 1) (by omega) h.2
          · simp [Memory.read]
        · next hne =>
          have hk : k ≠ a := fun e => hne e.symm
          simp only [Memory.read, if_neg hk]
          exact ih (k + 1) h.2
  exact go m 0

/-- A write leaves every other index alone. -/
theorem Memory.read_write_other (m : Memory) (a b : Nat) (v : Byte) (hab : a ≠ b) :
    Memory.read (Memory.write m a v) b = Memory.read m b := by
  induction m with
  | nil => by_cases h : v = Memory.unlisted <;> simp [Memory.write, Memory.read, h, hab]
  | cons kv m ih =>
    obtain ⟨k, w⟩ := kv
    unfold Memory.write
    split
    · split <;> simp [Memory.read, hab]
    · split
      · next heq => subst heq; split <;> simp [Memory.read, hab]
      · simp only [Memory.read, ih]

/-- The canonical form from an index on survives a write at or above it. -/
theorem Memory.wfFrom_write (m : Memory) (lo a : Nat) (v : Byte) (ha : a < 512) (hlo : lo ≤ a) :
    Memory.wfFrom lo m = true → Memory.wfFrom lo (Memory.write m a v) = true := by
  induction m generalizing lo with
  | nil =>
    intro _
    by_cases h : v = Memory.unlisted <;> simp [Memory.write, Memory.wfFrom, h, ha, hlo]
  | cons kv m ih =>
    obtain ⟨k, w⟩ := kv
    intro h
    have h' := h
    simp only [Memory.wfFrom, Bool.and_eq_true, decide_eq_true_eq] at h
    obtain ⟨⟨⟨hk, hk5⟩, hw⟩, hm⟩ := h
    unfold Memory.write
    split
    · next hlt =>
      split
      · exact h'
      · next hv => simp [Memory.wfFrom, ha, hlo, hv, hm, hw, hk5]; omega
    · split
      · next heq =>
        subst heq
        split
        · have : ∀ (m : Memory) (x y : Nat), x ≤ y → Memory.wfFrom y m = true → Memory.wfFrom x m = true := by
            intro m x y hxy hy
            cases m with
            | nil => rfl
            | cons kv m =>
              obtain ⟨k, w⟩ := kv
              simp only [Memory.wfFrom, Bool.and_eq_true, decide_eq_true_eq] at hy ⊢
              exact ⟨⟨⟨by omega, hy.1.1.2⟩, hy.1.2⟩, hy.2⟩
          exact this m lo (a + 1) (by omega) hm
        · next hv => simp [Memory.wfFrom, ha, hlo, hv, hm]
      · next hne =>
        simp only [Memory.wfFrom, Bool.and_eq_true, decide_eq_true_eq]
        exact ⟨⟨⟨hk, hk5⟩, hw⟩, ih (k + 1) (by omega) hm⟩

/-- A write keeps the canonical form. -/
theorem Memory.wf_write (m : Memory) (a : Nat) (v : Byte) (ha : a < 512) (h : Memory.wf m = true) :
    Memory.wf (Memory.write m a v) = true :=
  Memory.wfFrom_write m 0 a v ha (Nat.zero_le a) h

/-- The reset buffer is in canonical form. -/
theorem Memory.wf_reset : Memory.wf State.reset.buf = true := rfl

end Sys2Proof.Machine
end

