-- ==== Sys2Proof/Laws/State.lean ====
section
/-! SUPPORT. One lemma per field of State for each shared update: what the update writes there, or that it leaves it alone. -/

namespace Sys2Proof.Machine

/-! record: the trace alone grows (R33) -/

@[simp] theorem State.record_busy (s : State) (e : Transaction) : (s.record e).busy = s.busy := rfl
@[simp] theorem State.record_phase (s : State) (e : Transaction) : (s.record e).phase = s.phase := rfl
@[simp] theorem State.record_op (s : State) (e : Transaction) : (s.record e).op = s.op := rfl
@[simp] theorem State.record_addr (s : State) (e : Transaction) : (s.record e).addr = s.addr := rfl
@[simp] theorem State.record_idxCmd (s : State) (e : Transaction) : (s.record e).idxCmd = s.idxCmd := rfl
@[simp] theorem State.record_argHi (s : State) (e : Transaction) : (s.record e).argHi = s.argHi := rfl
@[simp] theorem State.record_argLo (s : State) (e : Transaction) : (s.record e).argLo = s.argLo := rfl
@[simp] theorem State.record_cnt (s : State) (e : Transaction) : (s.record e).cnt = s.cnt := rfl
@[simp] theorem State.record_poll (s : State) (e : Transaction) : (s.record e).poll = s.poll := rfl
@[simp] theorem State.record_byte (s : State) (e : Transaction) : (s.record e).byte = s.byte := rfl
@[simp] theorem State.record_r1 (s : State) (e : Transaction) : (s.record e).r1 = s.r1 := rfl
@[simp] theorem State.record_r2 (s : State) (e : Transaction) : (s.record e).r2 = s.r2 := rfl
@[simp] theorem State.record_ack (s : State) (e : Transaction) : (s.record e).ack = s.ack := rfl
@[simp] theorem State.record_tok (s : State) (e : Transaction) : (s.record e).tok = s.tok := rfl
@[simp] theorem State.record_initState (s : State) (e : Transaction) : (s.record e).initState = s.initState := rfl
@[simp] theorem State.record_result (s : State) (e : Transaction) : (s.record e).result = s.result := rfl
@[simp] theorem State.record_writeAckMode (s : State) (e : Transaction) : (s.record e).writeAckMode = s.writeAckMode := rfl
@[simp] theorem State.record_busyBound (s : State) (e : Transaction) : (s.record e).busyBound = s.busyBound := rfl
@[simp] theorem State.record_buf (s : State) (e : Transaction) : (s.record e).buf = s.buf := rfl
@[simp] theorem State.record_trace (s : State) (e : Transaction) : (s.record e).trace = e :: s.trace := rfl
@[simp] theorem State.record_diag (s : State) (e : Transaction) : (s.record e).diag = s.diag := rfl
@[simp] theorem State.record_sink (s : State) (e : Transaction) : (s.record e).sink = s.sink := rfl
@[simp] theorem State.record_xport (s : State) (e : Transaction) : (s.record e).xport = s.xport := rfl
@[simp] theorem State.record_draws (s : State) (e : Transaction) : (s.record e).draws = s.draws := rfl
@[simp] theorem State.record_returned (s : State) (e : Transaction) : (s.record e).returned = s.returned := rfl
@[simp] theorem State.record_host (s : State) (e : Transaction) : (s.record e).host = s.host := rfl

/-! finish: the end of an operation (R29) -/

@[simp] theorem State.finish_busy (s : State) (r : Result) : (s.finish r).busy = false := rfl
@[simp] theorem State.finish_phase (s : State) (r : Result) : (s.finish r).phase = .idle := rfl
@[simp] theorem State.finish_op (s : State) (r : Result) : (s.finish r).op = s.op := rfl
@[simp] theorem State.finish_addr (s : State) (r : Result) : (s.finish r).addr = s.addr := rfl
@[simp] theorem State.finish_idxCmd (s : State) (r : Result) : (s.finish r).idxCmd = s.idxCmd := rfl
@[simp] theorem State.finish_argHi (s : State) (r : Result) : (s.finish r).argHi = s.argHi := rfl
@[simp] theorem State.finish_argLo (s : State) (r : Result) : (s.finish r).argLo = s.argLo := rfl
@[simp] theorem State.finish_cnt (s : State) (r : Result) : (s.finish r).cnt = s.cnt := rfl
@[simp] theorem State.finish_poll (s : State) (r : Result) : (s.finish r).poll = s.poll := rfl
@[simp] theorem State.finish_byte (s : State) (r : Result) : (s.finish r).byte = s.byte := rfl
@[simp] theorem State.finish_r1 (s : State) (r : Result) : (s.finish r).r1 = s.r1 := rfl
@[simp] theorem State.finish_r2 (s : State) (r : Result) : (s.finish r).r2 = s.r2 := rfl
@[simp] theorem State.finish_ack (s : State) (r : Result) : (s.finish r).ack = s.ack := rfl
@[simp] theorem State.finish_tok (s : State) (r : Result) : (s.finish r).tok = s.tok := rfl
@[simp] theorem State.finish_initState (s : State) (r : Result) : (s.finish r).initState = s.initState := rfl
@[simp] theorem State.finish_result (s : State) (r : Result) : (s.finish r).result = r := rfl
@[simp] theorem State.finish_writeAckMode (s : State) (r : Result) : (s.finish r).writeAckMode = s.writeAckMode := rfl
@[simp] theorem State.finish_busyBound (s : State) (r : Result) : (s.finish r).busyBound = s.busyBound := rfl
@[simp] theorem State.finish_buf (s : State) (r : Result) : (s.finish r).buf = s.buf := rfl
@[simp] theorem State.finish_trace (s : State) (r : Result) : (s.finish r).trace = s.trace := rfl
@[simp] theorem State.finish_diag (s : State) (r : Result) : (s.finish r).diag = s.diag := rfl
@[simp] theorem State.finish_sink (s : State) (r : Result) : (s.finish r).sink = s.sink := rfl
@[simp] theorem State.finish_xport (s : State) (r : Result) : (s.finish r).xport = s.xport := rfl
@[simp] theorem State.finish_draws (s : State) (r : Result) : (s.finish r).draws = s.draws := rfl
@[simp] theorem State.finish_returned (s : State) (r : Result) : (s.finish r).returned = s.returned := rfl
@[simp] theorem State.finish_host (s : State) (r : Result) : (s.finish r).host = s.host := rfl

/-! succeed: `return Ok(v)` (R11) -/

@[simp] theorem State.succeed_busy (s : State) (v : Half) : (s.succeed v).busy = false := rfl
@[simp] theorem State.succeed_phase (s : State) (v : Half) : (s.succeed v).phase = .idle := rfl
@[simp] theorem State.succeed_op (s : State) (v : Half) : (s.succeed v).op = s.op := rfl
@[simp] theorem State.succeed_addr (s : State) (v : Half) : (s.succeed v).addr = s.addr := rfl
@[simp] theorem State.succeed_idxCmd (s : State) (v : Half) : (s.succeed v).idxCmd = s.idxCmd := rfl
@[simp] theorem State.succeed_argHi (s : State) (v : Half) : (s.succeed v).argHi = s.argHi := rfl
@[simp] theorem State.succeed_argLo (s : State) (v : Half) : (s.succeed v).argLo = s.argLo := rfl
@[simp] theorem State.succeed_cnt (s : State) (v : Half) : (s.succeed v).cnt = s.cnt := rfl
@[simp] theorem State.succeed_poll (s : State) (v : Half) : (s.succeed v).poll = s.poll := rfl
@[simp] theorem State.succeed_byte (s : State) (v : Half) : (s.succeed v).byte = s.byte := rfl
@[simp] theorem State.succeed_r1 (s : State) (v : Half) : (s.succeed v).r1 = s.r1 := rfl
@[simp] theorem State.succeed_r2 (s : State) (v : Half) : (s.succeed v).r2 = s.r2 := rfl
@[simp] theorem State.succeed_ack (s : State) (v : Half) : (s.succeed v).ack = s.ack := rfl
@[simp] theorem State.succeed_tok (s : State) (v : Half) : (s.succeed v).tok = s.tok := rfl
@[simp] theorem State.succeed_initState (s : State) (v : Half) : (s.succeed v).initState = s.initState := rfl
@[simp] theorem State.succeed_result (s : State) (v : Half) : (s.succeed v).result = .ok v := rfl
@[simp] theorem State.succeed_writeAckMode (s : State) (v : Half) : (s.succeed v).writeAckMode = s.writeAckMode := rfl
@[simp] theorem State.succeed_busyBound (s : State) (v : Half) : (s.succeed v).busyBound = s.busyBound := rfl
@[simp] theorem State.succeed_buf (s : State) (v : Half) : (s.succeed v).buf = s.buf := rfl
@[simp] theorem State.succeed_trace (s : State) (v : Half) : (s.succeed v).trace = s.trace := rfl
@[simp] theorem State.succeed_diag (s : State) (v : Half) : (s.succeed v).diag = s.diag := rfl
@[simp] theorem State.succeed_sink (s : State) (v : Half) : (s.succeed v).sink = s.sink := rfl
@[simp] theorem State.succeed_xport (s : State) (v : Half) : (s.succeed v).xport = s.xport := rfl
@[simp] theorem State.succeed_draws (s : State) (v : Half) : (s.succeed v).draws = s.draws := rfl
@[simp] theorem State.succeed_returned (s : State) (v : Half) : (s.succeed v).returned = s.returned := rfl
@[simp] theorem State.succeed_host (s : State) (v : Half) : (s.succeed v).host = s.host := rfl

/-! latchFrame: the frame latches (R120) -/

@[simp] theorem State.latchFrame_busy (s : State) (i : BitVec 6) (h l : Half) : (s.latchFrame i h l).busy = s.busy := rfl
@[simp] theorem State.latchFrame_phase (s : State) (i : BitVec 6) (h l : Half) : (s.latchFrame i h l).phase = s.phase := rfl
@[simp] theorem State.latchFrame_op (s : State) (i : BitVec 6) (h l : Half) : (s.latchFrame i h l).op = s.op := rfl
@[simp] theorem State.latchFrame_addr (s : State) (i : BitVec 6) (h l : Half) : (s.latchFrame i h l).addr = s.addr := rfl
@[simp] theorem State.latchFrame_idxCmd (s : State) (i : BitVec 6) (h l : Half) : (s.latchFrame i h l).idxCmd = i := rfl
@[simp] theorem State.latchFrame_argHi (s : State) (i : BitVec 6) (h l : Half) : (s.latchFrame i h l).argHi = h := rfl
@[simp] theorem State.latchFrame_argLo (s : State) (i : BitVec 6) (h l : Half) : (s.latchFrame i h l).argLo = l := rfl
@[simp] theorem State.latchFrame_cnt (s : State) (i : BitVec 6) (h l : Half) : (s.latchFrame i h l).cnt = s.cnt := rfl
@[simp] theorem State.latchFrame_poll (s : State) (i : BitVec 6) (h l : Half) : (s.latchFrame i h l).poll = s.poll := rfl
@[simp] theorem State.latchFrame_byte (s : State) (i : BitVec 6) (h l : Half) : (s.latchFrame i h l).byte = 0#10 := rfl
@[simp] theorem State.latchFrame_r1 (s : State) (i : BitVec 6) (h l : Half) : (s.latchFrame i h l).r1 = s.r1 := rfl
@[simp] theorem State.latchFrame_r2 (s : State) (i : BitVec 6) (h l : Half) : (s.latchFrame i h l).r2 = s.r2 := rfl
@[simp] theorem State.latchFrame_ack (s : State) (i : BitVec 6) (h l : Half) : (s.latchFrame i h l).ack = s.ack := rfl
@[simp] theorem State.latchFrame_tok (s : State) (i : BitVec 6) (h l : Half) : (s.latchFrame i h l).tok = s.tok := rfl
@[simp] theorem State.latchFrame_initState (s : State) (i : BitVec 6) (h l : Half) : (s.latchFrame i h l).initState = s.initState := rfl
@[simp] theorem State.latchFrame_result (s : State) (i : BitVec 6) (h l : Half) : (s.latchFrame i h l).result = s.result := rfl
@[simp] theorem State.latchFrame_writeAckMode (s : State) (i : BitVec 6) (h l : Half) : (s.latchFrame i h l).writeAckMode = s.writeAckMode := rfl
@[simp] theorem State.latchFrame_busyBound (s : State) (i : BitVec 6) (h l : Half) : (s.latchFrame i h l).busyBound = s.busyBound := rfl
@[simp] theorem State.latchFrame_buf (s : State) (i : BitVec 6) (h l : Half) : (s.latchFrame i h l).buf = s.buf := rfl
@[simp] theorem State.latchFrame_trace (s : State) (i : BitVec 6) (h l : Half) : (s.latchFrame i h l).trace = s.trace := rfl
@[simp] theorem State.latchFrame_diag (s : State) (i : BitVec 6) (h l : Half) : (s.latchFrame i h l).diag = s.diag := rfl
@[simp] theorem State.latchFrame_sink (s : State) (i : BitVec 6) (h l : Half) : (s.latchFrame i h l).sink = s.sink := rfl
@[simp] theorem State.latchFrame_xport (s : State) (i : BitVec 6) (h l : Half) : (s.latchFrame i h l).xport = s.xport := rfl
@[simp] theorem State.latchFrame_draws (s : State) (i : BitVec 6) (h l : Half) : (s.latchFrame i h l).draws = s.draws := rfl
@[simp] theorem State.latchFrame_returned (s : State) (i : BitVec 6) (h l : Half) : (s.latchFrame i h l).returned = s.returned := rfl
@[simp] theorem State.latchFrame_host (s : State) (i : BitVec 6) (h l : Half) : (s.latchFrame i h l).host = s.host := rfl

/-! enterFrame: a phase that sends a frame -/

@[simp] theorem State.enterFrame_busy (s : State) (p : Phase) (i : BitVec 6) (h l : Half) : (s.enterFrame p i h l).busy = s.busy := rfl
@[simp] theorem State.enterFrame_phase (s : State) (p : Phase) (i : BitVec 6) (h l : Half) : (s.enterFrame p i h l).phase = p := rfl
@[simp] theorem State.enterFrame_op (s : State) (p : Phase) (i : BitVec 6) (h l : Half) : (s.enterFrame p i h l).op = s.op := rfl
@[simp] theorem State.enterFrame_addr (s : State) (p : Phase) (i : BitVec 6) (h l : Half) : (s.enterFrame p i h l).addr = s.addr := rfl
@[simp] theorem State.enterFrame_idxCmd (s : State) (p : Phase) (i : BitVec 6) (h l : Half) : (s.enterFrame p i h l).idxCmd = i := rfl
@[simp] theorem State.enterFrame_argHi (s : State) (p : Phase) (i : BitVec 6) (h l : Half) : (s.enterFrame p i h l).argHi = h := rfl
@[simp] theorem State.enterFrame_argLo (s : State) (p : Phase) (i : BitVec 6) (h l : Half) : (s.enterFrame p i h l).argLo = l := rfl
@[simp] theorem State.enterFrame_cnt (s : State) (p : Phase) (i : BitVec 6) (h l : Half) : (s.enterFrame p i h l).cnt = s.cnt := rfl
@[simp] theorem State.enterFrame_poll (s : State) (p : Phase) (i : BitVec 6) (h l : Half) : (s.enterFrame p i h l).poll = s.poll := rfl
@[simp] theorem State.enterFrame_byte (s : State) (p : Phase) (i : BitVec 6) (h l : Half) : (s.enterFrame p i h l).byte = 0#10 := rfl
@[simp] theorem State.enterFrame_r1 (s : State) (p : Phase) (i : BitVec 6) (h l : Half) : (s.enterFrame p i h l).r1 = s.r1 := rfl
@[simp] theorem State.enterFrame_r2 (s : State) (p : Phase) (i : BitVec 6) (h l : Half) : (s.enterFrame p i h l).r2 = s.r2 := rfl
@[simp] theorem State.enterFrame_ack (s : State) (p : Phase) (i : BitVec 6) (h l : Half) : (s.enterFrame p i h l).ack = s.ack := rfl
@[simp] theorem State.enterFrame_tok (s : State) (p : Phase) (i : BitVec 6) (h l : Half) : (s.enterFrame p i h l).tok = s.tok := rfl
@[simp] theorem State.enterFrame_initState (s : State) (p : Phase) (i : BitVec 6) (h l : Half) : (s.enterFrame p i h l).initState = s.initState := rfl
@[simp] theorem State.enterFrame_result (s : State) (p : Phase) (i : BitVec 6) (h l : Half) : (s.enterFrame p i h l).result = s.result := rfl
@[simp] theorem State.enterFrame_writeAckMode (s : State) (p : Phase) (i : BitVec 6) (h l : Half) : (s.enterFrame p i h l).writeAckMode = s.writeAckMode := rfl
@[simp] theorem State.enterFrame_busyBound (s : State) (p : Phase) (i : BitVec 6) (h l : Half) : (s.enterFrame p i h l).busyBound = s.busyBound := rfl
@[simp] theorem State.enterFrame_buf (s : State) (p : Phase) (i : BitVec 6) (h l : Half) : (s.enterFrame p i h l).buf = s.buf := rfl
@[simp] theorem State.enterFrame_trace (s : State) (p : Phase) (i : BitVec 6) (h l : Half) : (s.enterFrame p i h l).trace = s.trace := rfl
@[simp] theorem State.enterFrame_diag (s : State) (p : Phase) (i : BitVec 6) (h l : Half) : (s.enterFrame p i h l).diag = s.diag := rfl
@[simp] theorem State.enterFrame_sink (s : State) (p : Phase) (i : BitVec 6) (h l : Half) : (s.enterFrame p i h l).sink = s.sink := rfl
@[simp] theorem State.enterFrame_xport (s : State) (p : Phase) (i : BitVec 6) (h l : Half) : (s.enterFrame p i h l).xport = s.xport := rfl
@[simp] theorem State.enterFrame_draws (s : State) (p : Phase) (i : BitVec 6) (h l : Half) : (s.enterFrame p i h l).draws = s.draws := rfl
@[simp] theorem State.enterFrame_returned (s : State) (p : Phase) (i : BitVec 6) (h l : Half) : (s.enterFrame p i h l).returned = s.returned := rfl
@[simp] theorem State.enterFrame_host (s : State) (p : Phase) (i : BitVec 6) (h l : Half) : (s.enterFrame p i h l).host = s.host := rfl

/-! enterPoll: a phase that polls for a response -/

@[simp] theorem State.enterPoll_busy (s : State) (p : Phase) : (s.enterPoll p).busy = s.busy := rfl
@[simp] theorem State.enterPoll_phase (s : State) (p : Phase) : (s.enterPoll p).phase = p := rfl
@[simp] theorem State.enterPoll_op (s : State) (p : Phase) : (s.enterPoll p).op = s.op := rfl
@[simp] theorem State.enterPoll_addr (s : State) (p : Phase) : (s.enterPoll p).addr = s.addr := rfl
@[simp] theorem State.enterPoll_idxCmd (s : State) (p : Phase) : (s.enterPoll p).idxCmd = s.idxCmd := rfl
@[simp] theorem State.enterPoll_argHi (s : State) (p : Phase) : (s.enterPoll p).argHi = s.argHi := rfl
@[simp] theorem State.enterPoll_argLo (s : State) (p : Phase) : (s.enterPoll p).argLo = s.argLo := rfl
@[simp] theorem State.enterPoll_cnt (s : State) (p : Phase) : (s.enterPoll p).cnt = s.cnt := rfl
@[simp] theorem State.enterPoll_poll (s : State) (p : Phase) : (s.enterPoll p).poll = 0#4 := rfl
@[simp] theorem State.enterPoll_byte (s : State) (p : Phase) : (s.enterPoll p).byte = s.byte := rfl
@[simp] theorem State.enterPoll_r1 (s : State) (p : Phase) : (s.enterPoll p).r1 = s.r1 := rfl
@[simp] theorem State.enterPoll_r2 (s : State) (p : Phase) : (s.enterPoll p).r2 = s.r2 := rfl
@[simp] theorem State.enterPoll_ack (s : State) (p : Phase) : (s.enterPoll p).ack = s.ack := rfl
@[simp] theorem State.enterPoll_tok (s : State) (p : Phase) : (s.enterPoll p).tok = s.tok := rfl
@[simp] theorem State.enterPoll_initState (s : State) (p : Phase) : (s.enterPoll p).initState = s.initState := rfl
@[simp] theorem State.enterPoll_result (s : State) (p : Phase) : (s.enterPoll p).result = s.result := rfl
@[simp] theorem State.enterPoll_writeAckMode (s : State) (p : Phase) : (s.enterPoll p).writeAckMode = s.writeAckMode := rfl
@[simp] theorem State.enterPoll_busyBound (s : State) (p : Phase) : (s.enterPoll p).busyBound = s.busyBound := rfl
@[simp] theorem State.enterPoll_buf (s : State) (p : Phase) : (s.enterPoll p).buf = s.buf := rfl
@[simp] theorem State.enterPoll_trace (s : State) (p : Phase) : (s.enterPoll p).trace = s.trace := rfl
@[simp] theorem State.enterPoll_diag (s : State) (p : Phase) : (s.enterPoll p).diag = s.diag := rfl
@[simp] theorem State.enterPoll_sink (s : State) (p : Phase) : (s.enterPoll p).sink = s.sink := rfl
@[simp] theorem State.enterPoll_xport (s : State) (p : Phase) : (s.enterPoll p).xport = s.xport := rfl
@[simp] theorem State.enterPoll_draws (s : State) (p : Phase) : (s.enterPoll p).draws = s.draws := rfl
@[simp] theorem State.enterPoll_returned (s : State) (p : Phase) : (s.enterPoll p).returned = s.returned := rfl
@[simp] theorem State.enterPoll_host (s : State) (p : Phase) : (s.enterPoll p).host = s.host := rfl

/-! enterBytes: a phase that counts bytes -/

@[simp] theorem State.enterBytes_busy (s : State) (p : Phase) : (s.enterBytes p).busy = s.busy := rfl
@[simp] theorem State.enterBytes_phase (s : State) (p : Phase) : (s.enterBytes p).phase = p := rfl
@[simp] theorem State.enterBytes_op (s : State) (p : Phase) : (s.enterBytes p).op = s.op := rfl
@[simp] theorem State.enterBytes_addr (s : State) (p : Phase) : (s.enterBytes p).addr = s.addr := rfl
@[simp] theorem State.enterBytes_idxCmd (s : State) (p : Phase) : (s.enterBytes p).idxCmd = s.idxCmd := rfl
@[simp] theorem State.enterBytes_argHi (s : State) (p : Phase) : (s.enterBytes p).argHi = s.argHi := rfl
@[simp] theorem State.enterBytes_argLo (s : State) (p : Phase) : (s.enterBytes p).argLo = s.argLo := rfl
@[simp] theorem State.enterBytes_cnt (s : State) (p : Phase) : (s.enterBytes p).cnt = s.cnt := rfl
@[simp] theorem State.enterBytes_poll (s : State) (p : Phase) : (s.enterBytes p).poll = s.poll := rfl
@[simp] theorem State.enterBytes_byte (s : State) (p : Phase) : (s.enterBytes p).byte = 0#10 := rfl
@[simp] theorem State.enterBytes_r1 (s : State) (p : Phase) : (s.enterBytes p).r1 = s.r1 := rfl
@[simp] theorem State.enterBytes_r2 (s : State) (p : Phase) : (s.enterBytes p).r2 = s.r2 := rfl
@[simp] theorem State.enterBytes_ack (s : State) (p : Phase) : (s.enterBytes p).ack = s.ack := rfl
@[simp] theorem State.enterBytes_tok (s : State) (p : Phase) : (s.enterBytes p).tok = s.tok := rfl
@[simp] theorem State.enterBytes_initState (s : State) (p : Phase) : (s.enterBytes p).initState = s.initState := rfl
@[simp] theorem State.enterBytes_result (s : State) (p : Phase) : (s.enterBytes p).result = s.result := rfl
@[simp] theorem State.enterBytes_writeAckMode (s : State) (p : Phase) : (s.enterBytes p).writeAckMode = s.writeAckMode := rfl
@[simp] theorem State.enterBytes_busyBound (s : State) (p : Phase) : (s.enterBytes p).busyBound = s.busyBound := rfl
@[simp] theorem State.enterBytes_buf (s : State) (p : Phase) : (s.enterBytes p).buf = s.buf := rfl
@[simp] theorem State.enterBytes_trace (s : State) (p : Phase) : (s.enterBytes p).trace = s.trace := rfl
@[simp] theorem State.enterBytes_diag (s : State) (p : Phase) : (s.enterBytes p).diag = s.diag := rfl
@[simp] theorem State.enterBytes_sink (s : State) (p : Phase) : (s.enterBytes p).sink = s.sink := rfl
@[simp] theorem State.enterBytes_xport (s : State) (p : Phase) : (s.enterBytes p).xport = s.xport := rfl
@[simp] theorem State.enterBytes_draws (s : State) (p : Phase) : (s.enterBytes p).draws = s.draws := rfl
@[simp] theorem State.enterBytes_returned (s : State) (p : Phase) : (s.enterBytes p).returned = s.returned := rfl
@[simp] theorem State.enterBytes_host (s : State) (p : Phase) : (s.enterBytes p).host = s.host := rfl

/-! enterCount: a phase that counts polls -/

@[simp] theorem State.enterCount_busy (s : State) (p : Phase) : (s.enterCount p).busy = s.busy := rfl
@[simp] theorem State.enterCount_phase (s : State) (p : Phase) : (s.enterCount p).phase = p := rfl
@[simp] theorem State.enterCount_op (s : State) (p : Phase) : (s.enterCount p).op = s.op := rfl
@[simp] theorem State.enterCount_addr (s : State) (p : Phase) : (s.enterCount p).addr = s.addr := rfl
@[simp] theorem State.enterCount_idxCmd (s : State) (p : Phase) : (s.enterCount p).idxCmd = s.idxCmd := rfl
@[simp] theorem State.enterCount_argHi (s : State) (p : Phase) : (s.enterCount p).argHi = s.argHi := rfl
@[simp] theorem State.enterCount_argLo (s : State) (p : Phase) : (s.enterCount p).argLo = s.argLo := rfl
@[simp] theorem State.enterCount_cnt (s : State) (p : Phase) : (s.enterCount p).cnt = 0 := rfl
@[simp] theorem State.enterCount_poll (s : State) (p : Phase) : (s.enterCount p).poll = s.poll := rfl
@[simp] theorem State.enterCount_byte (s : State) (p : Phase) : (s.enterCount p).byte = s.byte := rfl
@[simp] theorem State.enterCount_r1 (s : State) (p : Phase) : (s.enterCount p).r1 = s.r1 := rfl
@[simp] theorem State.enterCount_r2 (s : State) (p : Phase) : (s.enterCount p).r2 = s.r2 := rfl
@[simp] theorem State.enterCount_ack (s : State) (p : Phase) : (s.enterCount p).ack = s.ack := rfl
@[simp] theorem State.enterCount_tok (s : State) (p : Phase) : (s.enterCount p).tok = s.tok := rfl
@[simp] theorem State.enterCount_initState (s : State) (p : Phase) : (s.enterCount p).initState = s.initState := rfl
@[simp] theorem State.enterCount_result (s : State) (p : Phase) : (s.enterCount p).result = s.result := rfl
@[simp] theorem State.enterCount_writeAckMode (s : State) (p : Phase) : (s.enterCount p).writeAckMode = s.writeAckMode := rfl
@[simp] theorem State.enterCount_busyBound (s : State) (p : Phase) : (s.enterCount p).busyBound = s.busyBound := rfl
@[simp] theorem State.enterCount_buf (s : State) (p : Phase) : (s.enterCount p).buf = s.buf := rfl
@[simp] theorem State.enterCount_trace (s : State) (p : Phase) : (s.enterCount p).trace = s.trace := rfl
@[simp] theorem State.enterCount_diag (s : State) (p : Phase) : (s.enterCount p).diag = s.diag := rfl
@[simp] theorem State.enterCount_sink (s : State) (p : Phase) : (s.enterCount p).sink = s.sink := rfl
@[simp] theorem State.enterCount_xport (s : State) (p : Phase) : (s.enterCount p).xport = s.xport := rfl
@[simp] theorem State.enterCount_draws (s : State) (p : Phase) : (s.enterCount p).draws = s.draws := rfl
@[simp] theorem State.enterCount_returned (s : State) (p : Phase) : (s.enterCount p).returned = s.returned := rfl
@[simp] theorem State.enterCount_host (s : State) (p : Phase) : (s.enterCount p).host = s.host := rfl

/-! accept: a request is accepted (R29) -/

@[simp] theorem State.accept_busy (s : State) (c : BitVec 3) : (s.accept c).busy = true := rfl
@[simp] theorem State.accept_phase (s : State) (c : BitVec 3) : (s.accept c).phase = s.phase := rfl
@[simp] theorem State.accept_op (s : State) (c : BitVec 3) : (s.accept c).op = c := rfl
@[simp] theorem State.accept_addr (s : State) (c : BitVec 3) : (s.accept c).addr = s.addr := rfl
@[simp] theorem State.accept_idxCmd (s : State) (c : BitVec 3) : (s.accept c).idxCmd = s.idxCmd := rfl
@[simp] theorem State.accept_argHi (s : State) (c : BitVec 3) : (s.accept c).argHi = s.argHi := rfl
@[simp] theorem State.accept_argLo (s : State) (c : BitVec 3) : (s.accept c).argLo = s.argLo := rfl
@[simp] theorem State.accept_cnt (s : State) (c : BitVec 3) : (s.accept c).cnt = s.cnt := rfl
@[simp] theorem State.accept_poll (s : State) (c : BitVec 3) : (s.accept c).poll = s.poll := rfl
@[simp] theorem State.accept_byte (s : State) (c : BitVec 3) : (s.accept c).byte = s.byte := rfl
@[simp] theorem State.accept_r1 (s : State) (c : BitVec 3) : (s.accept c).r1 = s.r1 := rfl
@[simp] theorem State.accept_r2 (s : State) (c : BitVec 3) : (s.accept c).r2 = s.r2 := rfl
@[simp] theorem State.accept_ack (s : State) (c : BitVec 3) : (s.accept c).ack = s.ack := rfl
@[simp] theorem State.accept_tok (s : State) (c : BitVec 3) : (s.accept c).tok = s.tok := rfl
@[simp] theorem State.accept_initState (s : State) (c : BitVec 3) : (s.accept c).initState = s.initState := rfl
@[simp] theorem State.accept_result (s : State) (c : BitVec 3) : (s.accept c).result = s.result := rfl
@[simp] theorem State.accept_writeAckMode (s : State) (c : BitVec 3) : (s.accept c).writeAckMode = s.writeAckMode := rfl
@[simp] theorem State.accept_busyBound (s : State) (c : BitVec 3) : (s.accept c).busyBound = s.busyBound := rfl
@[simp] theorem State.accept_buf (s : State) (c : BitVec 3) : (s.accept c).buf = s.buf := rfl
@[simp] theorem State.accept_trace (s : State) (c : BitVec 3) : (s.accept c).trace = s.trace := rfl
@[simp] theorem State.accept_diag (s : State) (c : BitVec 3) : (s.accept c).diag = s.diag := rfl
@[simp] theorem State.accept_sink (s : State) (c : BitVec 3) : (s.accept c).sink = s.sink := rfl
@[simp] theorem State.accept_xport (s : State) (c : BitVec 3) : (s.accept c).xport = s.xport := rfl
@[simp] theorem State.accept_draws (s : State) (c : BitVec 3) : (s.accept c).draws = s.draws := rfl
@[simp] theorem State.accept_returned (s : State) (c : BitVec 3) : (s.accept c).returned = s.returned := rfl
@[simp] theorem State.accept_host (s : State) (c : BitVec 3) : (s.accept c).host = s.host := rfl

/-! control: a control operation (R240) -/

@[simp] theorem State.control_busy (s : State) : (s.control).busy = false := rfl
@[simp] theorem State.control_phase (s : State) : (s.control).phase = .idle := rfl
@[simp] theorem State.control_op (s : State) : (s.control).op = s.op := rfl
@[simp] theorem State.control_addr (s : State) : (s.control).addr = s.addr := rfl
@[simp] theorem State.control_idxCmd (s : State) : (s.control).idxCmd = s.idxCmd := rfl
@[simp] theorem State.control_argHi (s : State) : (s.control).argHi = s.argHi := rfl
@[simp] theorem State.control_argLo (s : State) : (s.control).argLo = s.argLo := rfl
@[simp] theorem State.control_cnt (s : State) : (s.control).cnt = s.cnt := rfl
@[simp] theorem State.control_poll (s : State) : (s.control).poll = s.poll := rfl
@[simp] theorem State.control_byte (s : State) : (s.control).byte = s.byte := rfl
@[simp] theorem State.control_r1 (s : State) : (s.control).r1 = s.r1 := rfl
@[simp] theorem State.control_r2 (s : State) : (s.control).r2 = s.r2 := rfl
@[simp] theorem State.control_ack (s : State) : (s.control).ack = s.ack := rfl
@[simp] theorem State.control_tok (s : State) : (s.control).tok = s.tok := rfl
@[simp] theorem State.control_initState (s : State) : (s.control).initState = s.initState := rfl
@[simp] theorem State.control_result (s : State) : (s.control).result = .ok (Config.controlValue s.draws) := rfl
@[simp] theorem State.control_writeAckMode (s : State) : (s.control).writeAckMode = s.writeAckMode := rfl
@[simp] theorem State.control_busyBound (s : State) : (s.control).busyBound = s.busyBound := rfl
@[simp] theorem State.control_buf (s : State) : (s.control).buf = s.buf := rfl
@[simp] theorem State.control_trace (s : State) : (s.control).trace = s.trace := rfl
@[simp] theorem State.control_diag (s : State) : (s.control).diag = s.diag := rfl
@[simp] theorem State.control_sink (s : State) : (s.control).sink = s.sink := rfl
@[simp] theorem State.control_xport (s : State) : (s.control).xport = s.xport := rfl
@[simp] theorem State.control_draws (s : State) : (s.control).draws = s.draws + 1 := rfl
@[simp] theorem State.control_returned (s : State) : (s.control).returned = s.returned := rfl
@[simp] theorem State.control_host (s : State) : (s.control).host = s.host := rfl

/-! deliverR1: an R1 value is delivered (R140) -/

@[simp] theorem State.deliverR1_busy (s : State) (r : Byte) : (s.deliverR1 r).busy = s.busy := rfl
@[simp] theorem State.deliverR1_phase (s : State) (r : Byte) : (s.deliverR1 r).phase = s.phase := rfl
@[simp] theorem State.deliverR1_op (s : State) (r : Byte) : (s.deliverR1 r).op = s.op := rfl
@[simp] theorem State.deliverR1_addr (s : State) (r : Byte) : (s.deliverR1 r).addr = s.addr := rfl
@[simp] theorem State.deliverR1_idxCmd (s : State) (r : Byte) : (s.deliverR1 r).idxCmd = s.idxCmd := rfl
@[simp] theorem State.deliverR1_argHi (s : State) (r : Byte) : (s.deliverR1 r).argHi = s.argHi := rfl
@[simp] theorem State.deliverR1_argLo (s : State) (r : Byte) : (s.deliverR1 r).argLo = s.argLo := rfl
@[simp] theorem State.deliverR1_cnt (s : State) (r : Byte) : (s.deliverR1 r).cnt = s.cnt := rfl
@[simp] theorem State.deliverR1_poll (s : State) (r : Byte) : (s.deliverR1 r).poll = s.poll := rfl
@[simp] theorem State.deliverR1_byte (s : State) (r : Byte) : (s.deliverR1 r).byte = s.byte := rfl
@[simp] theorem State.deliverR1_r1 (s : State) (r : Byte) : (s.deliverR1 r).r1 = r := rfl
@[simp] theorem State.deliverR1_r2 (s : State) (r : Byte) : (s.deliverR1 r).r2 = s.r2 := rfl
@[simp] theorem State.deliverR1_ack (s : State) (r : Byte) : (s.deliverR1 r).ack = s.ack := rfl
@[simp] theorem State.deliverR1_tok (s : State) (r : Byte) : (s.deliverR1 r).tok = s.tok := rfl
@[simp] theorem State.deliverR1_initState (s : State) (r : Byte) : (s.deliverR1 r).initState = s.initState := rfl
@[simp] theorem State.deliverR1_result (s : State) (r : Byte) : (s.deliverR1 r).result = s.result := rfl
@[simp] theorem State.deliverR1_writeAckMode (s : State) (r : Byte) : (s.deliverR1 r).writeAckMode = s.writeAckMode := rfl
@[simp] theorem State.deliverR1_busyBound (s : State) (r : Byte) : (s.deliverR1 r).busyBound = s.busyBound := rfl
@[simp] theorem State.deliverR1_buf (s : State) (r : Byte) : (s.deliverR1 r).buf = s.buf := rfl
@[simp] theorem State.deliverR1_trace (s : State) (r : Byte) : (s.deliverR1 r).trace = s.trace := rfl
@[simp] theorem State.deliverR1_diag (s : State) (r : Byte) : (s.deliverR1 r).diag = s.diag := rfl
@[simp] theorem State.deliverR1_sink (s : State) (r : Byte) : (s.deliverR1 r).sink = s.sink := rfl
@[simp] theorem State.deliverR1_xport (s : State) (r : Byte) : (s.deliverR1 r).xport = s.xport := rfl
@[simp] theorem State.deliverR1_draws (s : State) (r : Byte) : (s.deliverR1 r).draws = s.draws := rfl
@[simp] theorem State.deliverR1_returned (s : State) (r : Byte) : (s.deliverR1 r).returned = .byte r := rfl
@[simp] theorem State.deliverR1_host (s : State) (r : Byte) : (s.deliverR1 r).host = s.host := rfl

/-! returnR1Label: a class label is returned (R155) -/

@[simp] theorem State.returnR1Label_busy (s : State) (l : R1Label) : (s.returnR1Label l).busy = s.busy := rfl
@[simp] theorem State.returnR1Label_phase (s : State) (l : R1Label) : (s.returnR1Label l).phase = s.phase := rfl
@[simp] theorem State.returnR1Label_op (s : State) (l : R1Label) : (s.returnR1Label l).op = s.op := rfl
@[simp] theorem State.returnR1Label_addr (s : State) (l : R1Label) : (s.returnR1Label l).addr = s.addr := rfl
@[simp] theorem State.returnR1Label_idxCmd (s : State) (l : R1Label) : (s.returnR1Label l).idxCmd = s.idxCmd := rfl
@[simp] theorem State.returnR1Label_argHi (s : State) (l : R1Label) : (s.returnR1Label l).argHi = s.argHi := rfl
@[simp] theorem State.returnR1Label_argLo (s : State) (l : R1Label) : (s.returnR1Label l).argLo = s.argLo := rfl
@[simp] theorem State.returnR1Label_cnt (s : State) (l : R1Label) : (s.returnR1Label l).cnt = s.cnt := rfl
@[simp] theorem State.returnR1Label_poll (s : State) (l : R1Label) : (s.returnR1Label l).poll = s.poll := rfl
@[simp] theorem State.returnR1Label_byte (s : State) (l : R1Label) : (s.returnR1Label l).byte = s.byte := rfl
@[simp] theorem State.returnR1Label_r1 (s : State) (l : R1Label) : (s.returnR1Label l).r1 = s.r1 := rfl
@[simp] theorem State.returnR1Label_r2 (s : State) (l : R1Label) : (s.returnR1Label l).r2 = s.r2 := rfl
@[simp] theorem State.returnR1Label_ack (s : State) (l : R1Label) : (s.returnR1Label l).ack = s.ack := rfl
@[simp] theorem State.returnR1Label_tok (s : State) (l : R1Label) : (s.returnR1Label l).tok = s.tok := rfl
@[simp] theorem State.returnR1Label_initState (s : State) (l : R1Label) : (s.returnR1Label l).initState = s.initState := rfl
@[simp] theorem State.returnR1Label_result (s : State) (l : R1Label) : (s.returnR1Label l).result = s.result := rfl
@[simp] theorem State.returnR1Label_writeAckMode (s : State) (l : R1Label) : (s.returnR1Label l).writeAckMode = s.writeAckMode := rfl
@[simp] theorem State.returnR1Label_busyBound (s : State) (l : R1Label) : (s.returnR1Label l).busyBound = s.busyBound := rfl
@[simp] theorem State.returnR1Label_buf (s : State) (l : R1Label) : (s.returnR1Label l).buf = s.buf := rfl
@[simp] theorem State.returnR1Label_trace (s : State) (l : R1Label) : (s.returnR1Label l).trace = s.trace := rfl
@[simp] theorem State.returnR1Label_diag (s : State) (l : R1Label) : (s.returnR1Label l).diag = s.diag := rfl
@[simp] theorem State.returnR1Label_sink (s : State) (l : R1Label) : (s.returnR1Label l).sink = s.sink := rfl
@[simp] theorem State.returnR1Label_xport (s : State) (l : R1Label) : (s.returnR1Label l).xport = s.xport := rfl
@[simp] theorem State.returnR1Label_draws (s : State) (l : R1Label) : (s.returnR1Label l).draws = s.draws := rfl
@[simp] theorem State.returnR1Label_returned (s : State) (l : R1Label) : (s.returnR1Label l).returned = .r1Label l := rfl
@[simp] theorem State.returnR1Label_host (s : State) (l : R1Label) : (s.returnR1Label l).host = s.host := rfl

/-! returnR2Label: a class label is returned (R155) -/

@[simp] theorem State.returnR2Label_busy (s : State) (l : R2Label) : (s.returnR2Label l).busy = s.busy := rfl
@[simp] theorem State.returnR2Label_phase (s : State) (l : R2Label) : (s.returnR2Label l).phase = s.phase := rfl
@[simp] theorem State.returnR2Label_op (s : State) (l : R2Label) : (s.returnR2Label l).op = s.op := rfl
@[simp] theorem State.returnR2Label_addr (s : State) (l : R2Label) : (s.returnR2Label l).addr = s.addr := rfl
@[simp] theorem State.returnR2Label_idxCmd (s : State) (l : R2Label) : (s.returnR2Label l).idxCmd = s.idxCmd := rfl
@[simp] theorem State.returnR2Label_argHi (s : State) (l : R2Label) : (s.returnR2Label l).argHi = s.argHi := rfl
@[simp] theorem State.returnR2Label_argLo (s : State) (l : R2Label) : (s.returnR2Label l).argLo = s.argLo := rfl
@[simp] theorem State.returnR2Label_cnt (s : State) (l : R2Label) : (s.returnR2Label l).cnt = s.cnt := rfl
@[simp] theorem State.returnR2Label_poll (s : State) (l : R2Label) : (s.returnR2Label l).poll = s.poll := rfl
@[simp] theorem State.returnR2Label_byte (s : State) (l : R2Label) : (s.returnR2Label l).byte = s.byte := rfl
@[simp] theorem State.returnR2Label_r1 (s : State) (l : R2Label) : (s.returnR2Label l).r1 = s.r1 := rfl
@[simp] theorem State.returnR2Label_r2 (s : State) (l : R2Label) : (s.returnR2Label l).r2 = s.r2 := rfl
@[simp] theorem State.returnR2Label_ack (s : State) (l : R2Label) : (s.returnR2Label l).ack = s.ack := rfl
@[simp] theorem State.returnR2Label_tok (s : State) (l : R2Label) : (s.returnR2Label l).tok = s.tok := rfl
@[simp] theorem State.returnR2Label_initState (s : State) (l : R2Label) : (s.returnR2Label l).initState = s.initState := rfl
@[simp] theorem State.returnR2Label_result (s : State) (l : R2Label) : (s.returnR2Label l).result = s.result := rfl
@[simp] theorem State.returnR2Label_writeAckMode (s : State) (l : R2Label) : (s.returnR2Label l).writeAckMode = s.writeAckMode := rfl
@[simp] theorem State.returnR2Label_busyBound (s : State) (l : R2Label) : (s.returnR2Label l).busyBound = s.busyBound := rfl
@[simp] theorem State.returnR2Label_buf (s : State) (l : R2Label) : (s.returnR2Label l).buf = s.buf := rfl
@[simp] theorem State.returnR2Label_trace (s : State) (l : R2Label) : (s.returnR2Label l).trace = s.trace := rfl
@[simp] theorem State.returnR2Label_diag (s : State) (l : R2Label) : (s.returnR2Label l).diag = s.diag := rfl
@[simp] theorem State.returnR2Label_sink (s : State) (l : R2Label) : (s.returnR2Label l).sink = s.sink := rfl
@[simp] theorem State.returnR2Label_xport (s : State) (l : R2Label) : (s.returnR2Label l).xport = s.xport := rfl
@[simp] theorem State.returnR2Label_draws (s : State) (l : R2Label) : (s.returnR2Label l).draws = s.draws := rfl
@[simp] theorem State.returnR2Label_returned (s : State) (l : R2Label) : (s.returnR2Label l).returned = .r2Label l := rfl
@[simp] theorem State.returnR2Label_host (s : State) (l : R2Label) : (s.returnR2Label l).host = s.host := rfl

/-! raise: the failure of an operation (R256) -/

@[simp] theorem State.raise_busy (s : State) (f : Failure) : (s.raise f).busy = false := rfl
@[simp] theorem State.raise_phase (s : State) (f : Failure) : (s.raise f).phase = .idle := rfl
@[simp] theorem State.raise_op (s : State) (f : Failure) : (s.raise f).op = s.op := rfl
@[simp] theorem State.raise_addr (s : State) (f : Failure) : (s.raise f).addr = s.addr := rfl
@[simp] theorem State.raise_idxCmd (s : State) (f : Failure) : (s.raise f).idxCmd = s.idxCmd := rfl
@[simp] theorem State.raise_argHi (s : State) (f : Failure) : (s.raise f).argHi = s.argHi := rfl
@[simp] theorem State.raise_argLo (s : State) (f : Failure) : (s.raise f).argLo = s.argLo := rfl
@[simp] theorem State.raise_cnt (s : State) (f : Failure) : (s.raise f).cnt = s.cnt := rfl
@[simp] theorem State.raise_poll (s : State) (f : Failure) : (s.raise f).poll = s.poll := rfl
@[simp] theorem State.raise_byte (s : State) (f : Failure) : (s.raise f).byte = s.byte := rfl
@[simp] theorem State.raise_r1 (s : State) (f : Failure) : (s.raise f).r1 = s.r1 := rfl
@[simp] theorem State.raise_r2 (s : State) (f : Failure) : (s.raise f).r2 = s.r2 := rfl
@[simp] theorem State.raise_ack (s : State) (f : Failure) : (s.raise f).ack = s.ack := rfl
@[simp] theorem State.raise_tok (s : State) (f : Failure) : (s.raise f).tok = s.tok := rfl
@[simp] theorem State.raise_result (s : State) (f : Failure) : (s.raise f).result = .err f := rfl
@[simp] theorem State.raise_writeAckMode (s : State) (f : Failure) : (s.raise f).writeAckMode = s.writeAckMode := rfl
@[simp] theorem State.raise_busyBound (s : State) (f : Failure) : (s.raise f).busyBound = s.busyBound := rfl
@[simp] theorem State.raise_buf (s : State) (f : Failure) : (s.raise f).buf = s.buf := rfl
@[simp] theorem State.raise_trace (s : State) (f : Failure) : (s.raise f).trace = s.trace := rfl
@[simp] theorem State.raise_diag (s : State) (f : Failure) : (s.raise f).diag = s.diag := rfl
@[simp] theorem State.raise_sink (s : State) (f : Failure) : (s.raise f).sink = s.sink := rfl
@[simp] theorem State.raise_xport (s : State) (f : Failure) : (s.raise f).xport = s.xport := rfl
@[simp] theorem State.raise_draws (s : State) (f : Failure) : (s.raise f).draws = s.draws := rfl
@[simp] theorem State.raise_returned (s : State) (f : Failure) : (s.raise f).returned = s.returned := rfl
@[simp] theorem State.raise_host (s : State) (f : Failure) : (s.raise f).host = s.host := rfl
@[simp] theorem State.raise_init_initState (s : State) (g : InitFailure) :
    (s.raise (.init g)).initState = .failed g := rfl
@[simp] theorem State.raise_io_initState (s : State) (g : IoFailure) :
    (s.raise (.io g)).initState = s.initState := rfl

/-! report: only the diagnostic history can grow (R162, R257) -/

@[simp] theorem State.report_busy (s : State) (e : DiagEvent) : (s.report e).busy = s.busy := by
  unfold State.report; split <;> rfl
@[simp] theorem State.report_phase (s : State) (e : DiagEvent) : (s.report e).phase = s.phase := by
  unfold State.report; split <;> rfl
@[simp] theorem State.report_op (s : State) (e : DiagEvent) : (s.report e).op = s.op := by
  unfold State.report; split <;> rfl
@[simp] theorem State.report_addr (s : State) (e : DiagEvent) : (s.report e).addr = s.addr := by
  unfold State.report; split <;> rfl
@[simp] theorem State.report_idxCmd (s : State) (e : DiagEvent) : (s.report e).idxCmd = s.idxCmd := by
  unfold State.report; split <;> rfl
@[simp] theorem State.report_argHi (s : State) (e : DiagEvent) : (s.report e).argHi = s.argHi := by
  unfold State.report; split <;> rfl
@[simp] theorem State.report_argLo (s : State) (e : DiagEvent) : (s.report e).argLo = s.argLo := by
  unfold State.report; split <;> rfl
@[simp] theorem State.report_cnt (s : State) (e : DiagEvent) : (s.report e).cnt = s.cnt := by
  unfold State.report; split <;> rfl
@[simp] theorem State.report_poll (s : State) (e : DiagEvent) : (s.report e).poll = s.poll := by
  unfold State.report; split <;> rfl
@[simp] theorem State.report_byte (s : State) (e : DiagEvent) : (s.report e).byte = s.byte := by
  unfold State.report; split <;> rfl
@[simp] theorem State.report_r1 (s : State) (e : DiagEvent) : (s.report e).r1 = s.r1 := by
  unfold State.report; split <;> rfl
@[simp] theorem State.report_r2 (s : State) (e : DiagEvent) : (s.report e).r2 = s.r2 := by
  unfold State.report; split <;> rfl
@[simp] theorem State.report_ack (s : State) (e : DiagEvent) : (s.report e).ack = s.ack := by
  unfold State.report; split <;> rfl
@[simp] theorem State.report_tok (s : State) (e : DiagEvent) : (s.report e).tok = s.tok := by
  unfold State.report; split <;> rfl
@[simp] theorem State.report_initState (s : State) (e : DiagEvent) : (s.report e).initState = s.initState := by
  unfold State.report; split <;> rfl
@[simp] theorem State.report_result (s : State) (e : DiagEvent) : (s.report e).result = s.result := by
  unfold State.report; split <;> rfl
@[simp] theorem State.report_writeAckMode (s : State) (e : DiagEvent) : (s.report e).writeAckMode = s.writeAckMode := by
  unfold State.report; split <;> rfl
@[simp] theorem State.report_busyBound (s : State) (e : DiagEvent) : (s.report e).busyBound = s.busyBound := by
  unfold State.report; split <;> rfl
@[simp] theorem State.report_buf (s : State) (e : DiagEvent) : (s.report e).buf = s.buf := by
  unfold State.report; split <;> rfl
@[simp] theorem State.report_trace (s : State) (e : DiagEvent) : (s.report e).trace = s.trace := by
  unfold State.report; split <;> rfl
@[simp] theorem State.report_sink (s : State) (e : DiagEvent) : (s.report e).sink = s.sink := by
  unfold State.report; split <;> rfl
@[simp] theorem State.report_xport (s : State) (e : DiagEvent) : (s.report e).xport = s.xport := by
  unfold State.report; split <;> rfl
@[simp] theorem State.report_draws (s : State) (e : DiagEvent) : (s.report e).draws = s.draws := by
  unfold State.report; split <;> rfl
@[simp] theorem State.report_returned (s : State) (e : DiagEvent) : (s.report e).returned = s.returned := by
  unfold State.report; split <;> rfl
@[simp] theorem State.report_host (s : State) (e : DiagEvent) : (s.report e).host = s.host := by
  unfold State.report; split <;> rfl
@[simp] theorem State.report_diag (s : State) (e : DiagEvent) :
    (s.report e).diag = if s.sink then e :: s.diag else s.diag := by
  unfold State.report; split <;> rfl

/-! reportR1, reportR2: the two events the operations deliver (R161) -/

@[simp] theorem State.reportR1_busy (s : State) (b : Byte) : (s.reportR1 b).busy = s.busy :=
  State.report_busy s _
@[simp] theorem State.reportR1_phase (s : State) (b : Byte) : (s.reportR1 b).phase = s.phase :=
  State.report_phase s _
@[simp] theorem State.reportR1_op (s : State) (b : Byte) : (s.reportR1 b).op = s.op :=
  State.report_op s _
@[simp] theorem State.reportR1_addr (s : State) (b : Byte) : (s.reportR1 b).addr = s.addr :=
  State.report_addr s _
@[simp] theorem State.reportR1_idxCmd (s : State) (b : Byte) : (s.reportR1 b).idxCmd = s.idxCmd :=
  State.report_idxCmd s _
@[simp] theorem State.reportR1_argHi (s : State) (b : Byte) : (s.reportR1 b).argHi = s.argHi :=
  State.report_argHi s _
@[simp] theorem State.reportR1_argLo (s : State) (b : Byte) : (s.reportR1 b).argLo = s.argLo :=
  State.report_argLo s _
@[simp] theorem State.reportR1_cnt (s : State) (b : Byte) : (s.reportR1 b).cnt = s.cnt :=
  State.report_cnt s _
@[simp] theorem State.reportR1_poll (s : State) (b : Byte) : (s.reportR1 b).poll = s.poll :=
  State.report_poll s _
@[simp] theorem State.reportR1_byte (s : State) (b : Byte) : (s.reportR1 b).byte = s.byte :=
  State.report_byte s _
@[simp] theorem State.reportR1_r1 (s : State) (b : Byte) : (s.reportR1 b).r1 = s.r1 :=
  State.report_r1 s _
@[simp] theorem State.reportR1_r2 (s : State) (b : Byte) : (s.reportR1 b).r2 = s.r2 :=
  State.report_r2 s _
@[simp] theorem State.reportR1_ack (s : State) (b : Byte) : (s.reportR1 b).ack = s.ack :=
  State.report_ack s _
@[simp] theorem State.reportR1_tok (s : State) (b : Byte) : (s.reportR1 b).tok = s.tok :=
  State.report_tok s _
@[simp] theorem State.reportR1_initState (s : State) (b : Byte) : (s.reportR1 b).initState = s.initState :=
  State.report_initState s _
@[simp] theorem State.reportR1_result (s : State) (b : Byte) : (s.reportR1 b).result = s.result :=
  State.report_result s _
@[simp] theorem State.reportR1_writeAckMode (s : State) (b : Byte) : (s.reportR1 b).writeAckMode = s.writeAckMode :=
  State.report_writeAckMode s _
@[simp] theorem State.reportR1_busyBound (s : State) (b : Byte) : (s.reportR1 b).busyBound = s.busyBound :=
  State.report_busyBound s _
@[simp] theorem State.reportR1_buf (s : State) (b : Byte) : (s.reportR1 b).buf = s.buf :=
  State.report_buf s _
@[simp] theorem State.reportR1_trace (s : State) (b : Byte) : (s.reportR1 b).trace = s.trace :=
  State.report_trace s _
@[simp] theorem State.reportR1_sink (s : State) (b : Byte) : (s.reportR1 b).sink = s.sink :=
  State.report_sink s _
@[simp] theorem State.reportR1_xport (s : State) (b : Byte) : (s.reportR1 b).xport = s.xport :=
  State.report_xport s _
@[simp] theorem State.reportR1_draws (s : State) (b : Byte) : (s.reportR1 b).draws = s.draws :=
  State.report_draws s _
@[simp] theorem State.reportR1_returned (s : State) (b : Byte) : (s.reportR1 b).returned = s.returned :=
  State.report_returned s _
@[simp] theorem State.reportR1_host (s : State) (b : Byte) : (s.reportR1 b).host = s.host :=
  State.report_host s _
@[simp] theorem State.reportR2_busy (s : State) (b : Half) : (s.reportR2 b).busy = s.busy :=
  State.report_busy s _
@[simp] theorem State.reportR2_phase (s : State) (b : Half) : (s.reportR2 b).phase = s.phase :=
  State.report_phase s _
@[simp] theorem State.reportR2_op (s : State) (b : Half) : (s.reportR2 b).op = s.op :=
  State.report_op s _
@[simp] theorem State.reportR2_addr (s : State) (b : Half) : (s.reportR2 b).addr = s.addr :=
  State.report_addr s _
@[simp] theorem State.reportR2_idxCmd (s : State) (b : Half) : (s.reportR2 b).idxCmd = s.idxCmd :=
  State.report_idxCmd s _
@[simp] theorem State.reportR2_argHi (s : State) (b : Half) : (s.reportR2 b).argHi = s.argHi :=
  State.report_argHi s _
@[simp] theorem State.reportR2_argLo (s : State) (b : Half) : (s.reportR2 b).argLo = s.argLo :=
  State.report_argLo s _
@[simp] theorem State.reportR2_cnt (s : State) (b : Half) : (s.reportR2 b).cnt = s.cnt :=
  State.report_cnt s _
@[simp] theorem State.reportR2_poll (s : State) (b : Half) : (s.reportR2 b).poll = s.poll :=
  State.report_poll s _
@[simp] theorem State.reportR2_byte (s : State) (b : Half) : (s.reportR2 b).byte = s.byte :=
  State.report_byte s _
@[simp] theorem State.reportR2_r1 (s : State) (b : Half) : (s.reportR2 b).r1 = s.r1 :=
  State.report_r1 s _
@[simp] theorem State.reportR2_r2 (s : State) (b : Half) : (s.reportR2 b).r2 = s.r2 :=
  State.report_r2 s _
@[simp] theorem State.reportR2_ack (s : State) (b : Half) : (s.reportR2 b).ack = s.ack :=
  State.report_ack s _
@[simp] theorem State.reportR2_tok (s : State) (b : Half) : (s.reportR2 b).tok = s.tok :=
  State.report_tok s _
@[simp] theorem State.reportR2_initState (s : State) (b : Half) : (s.reportR2 b).initState = s.initState :=
  State.report_initState s _
@[simp] theorem State.reportR2_result (s : State) (b : Half) : (s.reportR2 b).result = s.result :=
  State.report_result s _
@[simp] theorem State.reportR2_writeAckMode (s : State) (b : Half) : (s.reportR2 b).writeAckMode = s.writeAckMode :=
  State.report_writeAckMode s _
@[simp] theorem State.reportR2_busyBound (s : State) (b : Half) : (s.reportR2 b).busyBound = s.busyBound :=
  State.report_busyBound s _
@[simp] theorem State.reportR2_buf (s : State) (b : Half) : (s.reportR2 b).buf = s.buf :=
  State.report_buf s _
@[simp] theorem State.reportR2_trace (s : State) (b : Half) : (s.reportR2 b).trace = s.trace :=
  State.report_trace s _
@[simp] theorem State.reportR2_sink (s : State) (b : Half) : (s.reportR2 b).sink = s.sink :=
  State.report_sink s _
@[simp] theorem State.reportR2_xport (s : State) (b : Half) : (s.reportR2 b).xport = s.xport :=
  State.report_xport s _
@[simp] theorem State.reportR2_draws (s : State) (b : Half) : (s.reportR2 b).draws = s.draws :=
  State.report_draws s _
@[simp] theorem State.reportR2_returned (s : State) (b : Half) : (s.reportR2 b).returned = s.returned :=
  State.report_returned s _
@[simp] theorem State.reportR2_host (s : State) (b : Half) : (s.reportR2 b).host = s.host :=
  State.report_host s _
@[simp] theorem State.reportR1_diag (s : State) (b : Byte) :
    (s.reportR1 b).diag = if s.sink then .r1Class (classR1 b) b :: s.diag else s.diag := State.report_diag s _
@[simp] theorem State.reportR2_diag (s : State) (w : Half) :
    (s.reportR2 w).diag = if s.sink then .r2Class (classR2 w) w :: s.diag else s.diag := State.report_diag s _

/-! consume: only the transport and the counter of free draws change (R62) -/

@[simp] theorem State.consume_busy (s : State) : s.consume.busy = s.busy := by
  unfold State.consume; split <;> [rfl; (split <;> rfl)]
@[simp] theorem State.consume_phase (s : State) : s.consume.phase = s.phase := by
  unfold State.consume; split <;> [rfl; (split <;> rfl)]
@[simp] theorem State.consume_op (s : State) : s.consume.op = s.op := by
  unfold State.consume; split <;> [rfl; (split <;> rfl)]
@[simp] theorem State.consume_addr (s : State) : s.consume.addr = s.addr := by
  unfold State.consume; split <;> [rfl; (split <;> rfl)]
@[simp] theorem State.consume_idxCmd (s : State) : s.consume.idxCmd = s.idxCmd := by
  unfold State.consume; split <;> [rfl; (split <;> rfl)]
@[simp] theorem State.consume_argHi (s : State) : s.consume.argHi = s.argHi := by
  unfold State.consume; split <;> [rfl; (split <;> rfl)]
@[simp] theorem State.consume_argLo (s : State) : s.consume.argLo = s.argLo := by
  unfold State.consume; split <;> [rfl; (split <;> rfl)]
@[simp] theorem State.consume_cnt (s : State) : s.consume.cnt = s.cnt := by
  unfold State.consume; split <;> [rfl; (split <;> rfl)]
@[simp] theorem State.consume_poll (s : State) : s.consume.poll = s.poll := by
  unfold State.consume; split <;> [rfl; (split <;> rfl)]
@[simp] theorem State.consume_byte (s : State) : s.consume.byte = s.byte := by
  unfold State.consume; split <;> [rfl; (split <;> rfl)]
@[simp] theorem State.consume_r1 (s : State) : s.consume.r1 = s.r1 := by
  unfold State.consume; split <;> [rfl; (split <;> rfl)]
@[simp] theorem State.consume_r2 (s : State) : s.consume.r2 = s.r2 := by
  unfold State.consume; split <;> [rfl; (split <;> rfl)]
@[simp] theorem State.consume_ack (s : State) : s.consume.ack = s.ack := by
  unfold State.consume; split <;> [rfl; (split <;> rfl)]
@[simp] theorem State.consume_tok (s : State) : s.consume.tok = s.tok := by
  unfold State.consume; split <;> [rfl; (split <;> rfl)]
@[simp] theorem State.consume_initState (s : State) : s.consume.initState = s.initState := by
  unfold State.consume; split <;> [rfl; (split <;> rfl)]
@[simp] theorem State.consume_result (s : State) : s.consume.result = s.result := by
  unfold State.consume; split <;> [rfl; (split <;> rfl)]
@[simp] theorem State.consume_writeAckMode (s : State) : s.consume.writeAckMode = s.writeAckMode := by
  unfold State.consume; split <;> [rfl; (split <;> rfl)]
@[simp] theorem State.consume_busyBound (s : State) : s.consume.busyBound = s.busyBound := by
  unfold State.consume; split <;> [rfl; (split <;> rfl)]
@[simp] theorem State.consume_buf (s : State) : s.consume.buf = s.buf := by
  unfold State.consume; split <;> [rfl; (split <;> rfl)]
@[simp] theorem State.consume_trace (s : State) : s.consume.trace = s.trace := by
  unfold State.consume; split <;> [rfl; (split <;> rfl)]
@[simp] theorem State.consume_diag (s : State) : s.consume.diag = s.diag := by
  unfold State.consume; split <;> [rfl; (split <;> rfl)]
@[simp] theorem State.consume_sink (s : State) : s.consume.sink = s.sink := by
  unfold State.consume; split <;> [rfl; (split <;> rfl)]
@[simp] theorem State.consume_returned (s : State) : s.consume.returned = s.returned := by
  unfold State.consume; split <;> [rfl; (split <;> rfl)]
@[simp] theorem State.consume_host (s : State) : s.consume.host = s.host := by
  unfold State.consume; split <;> [rfl; (split <;> rfl)]

/-! countInit: one `XportInit()` has completed (R177) -/

@[simp] theorem State.countInit_busy (s : State) : s.countInit.busy = s.busy := rfl
@[simp] theorem State.countInit_phase (s : State) : s.countInit.phase = s.phase := rfl
@[simp] theorem State.countInit_op (s : State) : s.countInit.op = s.op := rfl
@[simp] theorem State.countInit_addr (s : State) : s.countInit.addr = s.addr := rfl
@[simp] theorem State.countInit_idxCmd (s : State) : s.countInit.idxCmd = s.idxCmd := rfl
@[simp] theorem State.countInit_argHi (s : State) : s.countInit.argHi = s.argHi := rfl
@[simp] theorem State.countInit_argLo (s : State) : s.countInit.argLo = s.argLo := rfl
@[simp] theorem State.countInit_cnt (s : State) : s.countInit.cnt = s.cnt := rfl
@[simp] theorem State.countInit_poll (s : State) : s.countInit.poll = s.poll := rfl
@[simp] theorem State.countInit_byte (s : State) : s.countInit.byte = s.byte := rfl
@[simp] theorem State.countInit_r1 (s : State) : s.countInit.r1 = s.r1 := rfl
@[simp] theorem State.countInit_r2 (s : State) : s.countInit.r2 = s.r2 := rfl
@[simp] theorem State.countInit_ack (s : State) : s.countInit.ack = s.ack := rfl
@[simp] theorem State.countInit_tok (s : State) : s.countInit.tok = s.tok := rfl
@[simp] theorem State.countInit_initState (s : State) : s.countInit.initState = s.initState := rfl
@[simp] theorem State.countInit_result (s : State) : s.countInit.result = s.result := rfl
@[simp] theorem State.countInit_writeAckMode (s : State) : s.countInit.writeAckMode = s.writeAckMode := rfl
@[simp] theorem State.countInit_busyBound (s : State) : s.countInit.busyBound = s.busyBound := rfl
@[simp] theorem State.countInit_buf (s : State) : s.countInit.buf = s.buf := rfl
@[simp] theorem State.countInit_trace (s : State) : s.countInit.trace = s.trace := rfl
@[simp] theorem State.countInit_diag (s : State) : s.countInit.diag = s.diag := rfl
@[simp] theorem State.countInit_sink (s : State) : s.countInit.sink = s.sink := rfl
@[simp] theorem State.countInit_draws (s : State) : s.countInit.draws = s.draws := rfl
@[simp] theorem State.countInit_returned (s : State) : s.countInit.returned = s.returned := rfl
@[simp] theorem State.countInit_host (s : State) : s.countInit.host = s.host := rfl
@[simp] theorem State.countInit_xport (s : State) :
    s.countInit.xport = { s.xport with inits := s.xport.inits.map fun n => n - 1 } := rfl

/-! endBy: the operation in progress ends with a result, or nothing happens (R29, R256) -/

/-- A result that no operation in progress can end with changes nothing. -/
theorem State.endBy_of_not {s : State} {r : Result} (h : s.canEnd r = false) : s.endBy r = s := by
  simp [State.endBy, h]
/-- No operation in progress, nothing to end. -/
@[simp] theorem State.endBy_of_idle {s : State} (r : Result) (h : s.busy = false) : s.endBy r = s :=
  State.endBy_of_not (by simp [State.canEnd, h])
/-- `raise` where the operation can end with that failure. -/
theorem State.endBy_err {s : State} {f : Failure} (h : s.canEnd (.err f) = true) : s.endBy (.err f) = s.raise f := by
  simp [State.endBy, h]
/-- `return` where the operation can end with that value. -/
theorem State.endBy_ok {s : State} {v : Half} (h : s.canEnd (.ok v) = true) :
    s.endBy (.ok v) = { s.succeed v with initState := if s.phase = .iStatusLo then .ready else s.initState } := by
  simp [State.endBy, h]
/-- All that the end of an operation can do. -/
theorem State.endBy_cases (s : State) (r : Result) :
    s.endBy r = s ∨
      (∃ v, r = .ok v ∧ s.canEnd r = true ∧ s.endBy r
        = { s.succeed v with initState := if s.phase = .iStatusLo then .ready else s.initState }) ∨
      (∃ f, r = .err f ∧ s.canEnd r = true ∧ s.endBy r = s.raise f) := by
  cases h : s.canEnd r with
  | false => exact .inl (State.endBy_of_not h)
  | true =>
    cases r with
    | none => exact .inl (by simp [State.endBy])
    | ok v => exact .inr (.inl ⟨v, rfl, rfl, State.endBy_ok h⟩)
    | err f => exact .inr (.inr ⟨f, rfl, rfl, State.endBy_err h⟩)

@[simp] theorem State.endBy_op (s : State) (r : Result) : (s.endBy r).op = s.op := by
  rcases State.endBy_cases s r with h | ⟨v, -, -, h⟩ | ⟨f, -, -, h⟩ <;> simp [h]
@[simp] theorem State.endBy_addr (s : State) (r : Result) : (s.endBy r).addr = s.addr := by
  rcases State.endBy_cases s r with h | ⟨v, -, -, h⟩ | ⟨f, -, -, h⟩ <;> simp [h]
@[simp] theorem State.endBy_idxCmd (s : State) (r : Result) : (s.endBy r).idxCmd = s.idxCmd := by
  rcases State.endBy_cases s r with h | ⟨v, -, -, h⟩ | ⟨f, -, -, h⟩ <;> simp [h]
@[simp] theorem State.endBy_argHi (s : State) (r : Result) : (s.endBy r).argHi = s.argHi := by
  rcases State.endBy_cases s r with h | ⟨v, -, -, h⟩ | ⟨f, -, -, h⟩ <;> simp [h]
@[simp] theorem State.endBy_argLo (s : State) (r : Result) : (s.endBy r).argLo = s.argLo := by
  rcases State.endBy_cases s r with h | ⟨v, -, -, h⟩ | ⟨f, -, -, h⟩ <;> simp [h]
@[simp] theorem State.endBy_cnt (s : State) (r : Result) : (s.endBy r).cnt = s.cnt := by
  rcases State.endBy_cases s r with h | ⟨v, -, -, h⟩ | ⟨f, -, -, h⟩ <;> simp [h]
@[simp] theorem State.endBy_poll (s : State) (r : Result) : (s.endBy r).poll = s.poll := by
  rcases State.endBy_cases s r with h | ⟨v, -, -, h⟩ | ⟨f, -, -, h⟩ <;> simp [h]
@[simp] theorem State.endBy_byte (s : State) (r : Result) : (s.endBy r).byte = s.byte := by
  rcases State.endBy_cases s r with h | ⟨v, -, -, h⟩ | ⟨f, -, -, h⟩ <;> simp [h]
@[simp] theorem State.endBy_r1 (s : State) (r : Result) : (s.endBy r).r1 = s.r1 := by
  rcases State.endBy_cases s r with h | ⟨v, -, -, h⟩ | ⟨f, -, -, h⟩ <;> simp [h]
@[simp] theorem State.endBy_r2 (s : State) (r : Result) : (s.endBy r).r2 = s.r2 := by
  rcases State.endBy_cases s r with h | ⟨v, -, -, h⟩ | ⟨f, -, -, h⟩ <;> simp [h]
@[simp] theorem State.endBy_ack (s : State) (r : Result) : (s.endBy r).ack = s.ack := by
  rcases State.endBy_cases s r with h | ⟨v, -, -, h⟩ | ⟨f, -, -, h⟩ <;> simp [h]
@[simp] theorem State.endBy_tok (s : State) (r : Result) : (s.endBy r).tok = s.tok := by
  rcases State.endBy_cases s r with h | ⟨v, -, -, h⟩ | ⟨f, -, -, h⟩ <;> simp [h]
@[simp] theorem State.endBy_writeAckMode (s : State) (r : Result) : (s.endBy r).writeAckMode = s.writeAckMode := by
  rcases State.endBy_cases s r with h | ⟨v, -, -, h⟩ | ⟨f, -, -, h⟩ <;> simp [h]
@[simp] theorem State.endBy_busyBound (s : State) (r : Result) : (s.endBy r).busyBound = s.busyBound := by
  rcases State.endBy_cases s r with h | ⟨v, -, -, h⟩ | ⟨f, -, -, h⟩ <;> simp [h]
@[simp] theorem State.endBy_buf (s : State) (r : Result) : (s.endBy r).buf = s.buf := by
  rcases State.endBy_cases s r with h | ⟨v, -, -, h⟩ | ⟨f, -, -, h⟩ <;> simp [h]
@[simp] theorem State.endBy_trace (s : State) (r : Result) : (s.endBy r).trace = s.trace := by
  rcases State.endBy_cases s r with h | ⟨v, -, -, h⟩ | ⟨f, -, -, h⟩ <;> simp [h]
@[simp] theorem State.endBy_diag (s : State) (r : Result) : (s.endBy r).diag = s.diag := by
  rcases State.endBy_cases s r with h | ⟨v, -, -, h⟩ | ⟨f, -, -, h⟩ <;> simp [h]
@[simp] theorem State.endBy_sink (s : State) (r : Result) : (s.endBy r).sink = s.sink := by
  rcases State.endBy_cases s r with h | ⟨v, -, -, h⟩ | ⟨f, -, -, h⟩ <;> simp [h]
@[simp] theorem State.endBy_draws (s : State) (r : Result) : (s.endBy r).draws = s.draws := by
  rcases State.endBy_cases s r with h | ⟨v, -, -, h⟩ | ⟨f, -, -, h⟩ <;> simp [h]
@[simp] theorem State.endBy_returned (s : State) (r : Result) : (s.endBy r).returned = s.returned := by
  rcases State.endBy_cases s r with h | ⟨v, -, -, h⟩ | ⟨f, -, -, h⟩ <;> simp [h]
@[simp] theorem State.endBy_host (s : State) (r : Result) : (s.endBy r).host = s.host := by
  rcases State.endBy_cases s r with h | ⟨v, -, -, h⟩ | ⟨f, -, -, h⟩ <;> simp [h]
@[simp] theorem State.endBy_xport (s : State) (r : Result) : (s.endBy r).xport = s.xport := by
  rcases State.endBy_cases s r with h | ⟨v, -, -, h⟩ | ⟨f, -, -, h⟩ <;> simp [h]

/-! skip: the same for any number of answers -/

@[simp] theorem State.skip_busy (n : Nat) (s : State) : (s.skip n).busy = s.busy := by
  induction n generalizing s with
  | zero => rfl
  | succ n ih => simp [State.skip, ih]
@[simp] theorem State.skip_phase (n : Nat) (s : State) : (s.skip n).phase = s.phase := by
  induction n generalizing s with
  | zero => rfl
  | succ n ih => simp [State.skip, ih]
@[simp] theorem State.skip_op (n : Nat) (s : State) : (s.skip n).op = s.op := by
  induction n generalizing s with
  | zero => rfl
  | succ n ih => simp [State.skip, ih]
@[simp] theorem State.skip_addr (n : Nat) (s : State) : (s.skip n).addr = s.addr := by
  induction n generalizing s with
  | zero => rfl
  | succ n ih => simp [State.skip, ih]
@[simp] theorem State.skip_idxCmd (n : Nat) (s : State) : (s.skip n).idxCmd = s.idxCmd := by
  induction n generalizing s with
  | zero => rfl
  | succ n ih => simp [State.skip, ih]
@[simp] theorem State.skip_argHi (n : Nat) (s : State) : (s.skip n).argHi = s.argHi := by
  induction n generalizing s with
  | zero => rfl
  | succ n ih => simp [State.skip, ih]
@[simp] theorem State.skip_argLo (n : Nat) (s : State) : (s.skip n).argLo = s.argLo := by
  induction n generalizing s with
  | zero => rfl
  | succ n ih => simp [State.skip, ih]
@[simp] theorem State.skip_cnt (n : Nat) (s : State) : (s.skip n).cnt = s.cnt := by
  induction n generalizing s with
  | zero => rfl
  | succ n ih => simp [State.skip, ih]
@[simp] theorem State.skip_poll (n : Nat) (s : State) : (s.skip n).poll = s.poll := by
  induction n generalizing s with
  | zero => rfl
  | succ n ih => simp [State.skip, ih]
@[simp] theorem State.skip_byte (n : Nat) (s : State) : (s.skip n).byte = s.byte := by
  induction n generalizing s with
  | zero => rfl
  | succ n ih => simp [State.skip, ih]
@[simp] theorem State.skip_r1 (n : Nat) (s : State) : (s.skip n).r1 = s.r1 := by
  induction n generalizing s with
  | zero => rfl
  | succ n ih => simp [State.skip, ih]
@[simp] theorem State.skip_r2 (n : Nat) (s : State) : (s.skip n).r2 = s.r2 := by
  induction n generalizing s with
  | zero => rfl
  | succ n ih => simp [State.skip, ih]
@[simp] theorem State.skip_ack (n : Nat) (s : State) : (s.skip n).ack = s.ack := by
  induction n generalizing s with
  | zero => rfl
  | succ n ih => simp [State.skip, ih]
@[simp] theorem State.skip_tok (n : Nat) (s : State) : (s.skip n).tok = s.tok := by
  induction n generalizing s with
  | zero => rfl
  | succ n ih => simp [State.skip, ih]
@[simp] theorem State.skip_initState (n : Nat) (s : State) : (s.skip n).initState = s.initState := by
  induction n generalizing s with
  | zero => rfl
  | succ n ih => simp [State.skip, ih]
@[simp] theorem State.skip_result (n : Nat) (s : State) : (s.skip n).result = s.result := by
  induction n generalizing s with
  | zero => rfl
  | succ n ih => simp [State.skip, ih]
@[simp] theorem State.skip_writeAckMode (n : Nat) (s : State) : (s.skip n).writeAckMode = s.writeAckMode := by
  induction n generalizing s with
  | zero => rfl
  | succ n ih => simp [State.skip, ih]
@[simp] theorem State.skip_busyBound (n : Nat) (s : State) : (s.skip n).busyBound = s.busyBound := by
  induction n generalizing s with
  | zero => rfl
  | succ n ih => simp [State.skip, ih]
@[simp] theorem State.skip_buf (n : Nat) (s : State) : (s.skip n).buf = s.buf := by
  induction n generalizing s with
  | zero => rfl
  | succ n ih => simp [State.skip, ih]
@[simp] theorem State.skip_trace (n : Nat) (s : State) : (s.skip n).trace = s.trace := by
  induction n generalizing s with
  | zero => rfl
  | succ n ih => simp [State.skip, ih]
@[simp] theorem State.skip_diag (n : Nat) (s : State) : (s.skip n).diag = s.diag := by
  induction n generalizing s with
  | zero => rfl
  | succ n ih => simp [State.skip, ih]
@[simp] theorem State.skip_sink (n : Nat) (s : State) : (s.skip n).sink = s.sink := by
  induction n generalizing s with
  | zero => rfl
  | succ n ih => simp [State.skip, ih]
@[simp] theorem State.skip_returned (n : Nat) (s : State) : (s.skip n).returned = s.returned := by
  induction n generalizing s with
  | zero => rfl
  | succ n ih => simp [State.skip, ih]
@[simp] theorem State.skip_host (n : Nat) (s : State) : (s.skip n).host = s.host := by
  induction n generalizing s with
  | zero => rfl
  | succ n ih => simp [State.skip, ih]

end Sys2Proof.Machine
end

