-- ==== Sys2Proof/Laws/Ops.lean ====
section
/-! SUPPORT. One lemma for each shared operation that says everything it can do, and the lemmas about the transport's answers that
a run of exchanges needs. -/

namespace Sys2Proof.Machine

/-! ### The transport -/

/-- After one answer is used up the next one comes first. -/
theorem State.consume_answerAt (s : State) (k : Nat) (b : Byte) (h : s.answerAt 0 = some b) :
    s.consume.answerAt k = s.answerAt (k + 1) := by
  rcases hs : s.xport with ⟨script, after, inits⟩
  cases script with
  | cons a rest => simp [State.consume, State.answerAt, hs]
  | nil =>
    cases after with
    | free => simp [State.consume, State.answerAt, hs]; congr 1; omega
    | constant b => simp [State.consume, State.answerAt, hs]
    | hung => simp [State.answerAt, hs] at h

/-- What the transport answers does not depend on anything else of the state. -/
theorem State.answerAt_congr (s t : State) (hx : s.xport = t.xport) (hd : s.draws = t.draws) (k : Nat) :
    s.answerAt k = t.answerAt k := by
  simp [State.answerAt, hx, hd]

/-- `Supplies` depends on the transport and the counter of free draws only. -/
theorem State.Supplies.congr {s t : State} (hx : s.xport = t.xport) (hd : s.draws = t.draws) {as : List Byte}
    (h : s.Supplies as) : t.Supplies as :=
  fun k hk => by rw [← State.answerAt_congr s t hx hd k]; exact h k hk

/-- The first answer of a supply. -/
theorem State.Supplies.head {s : State} {a : Byte} {as : List Byte} (h : s.Supplies (a :: as)) :
    s.answerAt 0 = some a := h 0 (by simp)

/-- The rest of a supply, after the first answer is used up. -/
theorem State.Supplies.tail {s : State} {a : Byte} {as : List Byte} (h : s.Supplies (a :: as)) :
    s.consume.Supplies as := fun k hk => by
  rw [State.consume_answerAt s k a h.head]
  exact h (k + 1) (by simpa using hk)

/-- A transport whose listed answers begin with some bytes supplies them. -/
theorem State.Supplies.of_script {s : State} {as rest : List Byte} (h : s.xport.script = as ++ rest) : s.Supplies as :=
  fun k hk => by
    have hk' : k < (as ++ rest).length := by simp; omega
    simp [State.answerAt, h, List.getElem?_append_left hk, List.getElem?_eq_getElem hk]

/-- The first part of a supply. -/
theorem State.Supplies.left {s : State} {as bs : List Byte} (h : s.Supplies (as ++ bs)) : s.Supplies as :=
  fun k hk => by
    have := h k (by simp; omega)
    rwa [List.getElem_append_left hk] at this

/-- The second part of a supply, after the first has been used up. -/
theorem State.Supplies.right {s : State} {as bs : List Byte} (h : s.Supplies (as ++ bs)) :
    (s.skip as.length).Supplies bs := by
  induction as generalizing s with
  | nil => exact h
  | cons a as ih => exact ih (s := s.consume) (State.Supplies.tail h)

/-- Answers already used up add. -/
theorem State.skip_add (m n : Nat) (s : State) : State.skip n (State.skip m s) = State.skip (m + n) s := by
  induction m generalizing s with
  | zero => simp [State.skip]
  | succ m ih => rw [Nat.succ_add]; exact ih s.consume

/-- An exchange whose answer is known. -/
theorem xchg_of_answer {o i : Byte} {s : State} {k : Byte → State → Out} (h : s.answerAt 0 = some i) :
    xchg o s k = k i (s.consume.record (.xchg o i)) := by
  simp [xchg, h]

/-- All that an exchange can do. -/
theorem xchg_cases (o : Byte) (s : State) (k : Byte → State → Out) :
    (∃ i, s.answerAt 0 = some i ∧ xchg o s k = k i (s.consume.record (.xchg o i))) ∨
      (s.answerAt 0 = none ∧ xchg o s k = .fault .transportNeverCompletes) := by
  cases h : s.answerAt 0 with
  | some i => exact .inl ⟨i, rfl, xchg_of_answer h⟩
  | none => exact .inr ⟨rfl, by simp [xchg, h]⟩

/-- An exchange that leads to a next state was answered. -/
theorem xchg_next {o : Byte} {s t : State} {k : Byte → State → Out} (h : xchg o s k = .next t) :
    ∃ i, s.answerAt 0 = some i ∧ k i (s.consume.record (.xchg o i)) = .next t := by
  obtain ⟨i, hi, hx⟩ | ⟨-, hx⟩ := xchg_cases o s k
  · exact ⟨i, hi, hx ▸ h⟩
  · rw [hx] at h; cases h

/-- `XportInit` that leads to a next state recorded exactly one `init`. -/
theorem xportInit_next {s t : State} {k : State → Out} (h : xportInit s k = .next t) :
    s.xport.inits ≠ some 0 ∧ k (s.countInit.record .init) = .next t := by
  unfold xportInit at h
  split at h
  · cases h
  · next hh => exact ⟨hh, h⟩

/-- `MemRead` inside the buffer. -/
theorem memRead_of_lt {i : Nat} {s : State} {k : Byte → State → Out} (h : i < 512) :
    memRead i s k = k (Memory.read s.buf i) s := by
  simp [memRead, h]

/-- `MemWrite` inside the buffer. -/
theorem memWrite_of_lt {i : Nat} {v : Byte} {s : State} {k : State → Out} (h : i < 512) :
    memWrite i v s k = k { s with buf := Memory.write s.buf i v } := by
  simp [memWrite, h]

/-! ### One transaction of a frame, a poll, a checksum -/

/-- All that one byte of a frame can do on the way to a next state. -/
theorem frameStep_next {s t : State} {done more : State → Out} (h : frameStep s done more = .next t) :
    ∃ i u, s.answerAt 0 = some i ∧
      u = { s.consume.record (.xchg (s.frameByte s.byte.toNat) i) with byte := s.byte + 1#10 } ∧
      ((s.byte + 1#10 = 8#10 ∧ done u = .next t) ∨ (s.byte + 1#10 ≠ 8#10 ∧ more u = .next t)) := by
  obtain ⟨i, hi, hk⟩ := xchg_next h
  refine ⟨i, _, hi, rfl, ?_⟩
  simp only [State.record_byte, State.consume_byte] at hk
  split at hk
  · next hb => exact .inl ⟨hb, hk⟩
  · next hb => exact .inr ⟨hb, hk⟩

/-- All that one poll can do on the way to a next state. -/
theorem pollStep_next {s t : State} {done : Byte → State → Out} {more : State → Out}
    (h : pollStep s done more = .next t) :
    ∃ r u, s.answerAt 0 = some r ∧ u = { s.consume.record (.xchg Config.idleByte r) with poll := s.poll + 1#4 } ∧
      (((r ≠ Config.idleByte ∨ s.poll + 1#4 = 8#4) ∧ done r { u with r1 := r } = .next t) ∨
        (r = Config.idleByte ∧ s.poll + 1#4 ≠ 8#4 ∧ more u = .next t)) := by
  obtain ⟨r, hr, hk⟩ := xchg_next h
  refine ⟨r, _, hr, rfl, ?_⟩
  simp only [State.record_poll, State.consume_poll] at hk
  split at hk
  · next hb => exact .inl ⟨hb, hk⟩
  · next hb =>
    simp only [not_or, not_not] at hb
    exact .inr ⟨hb.1, hb.2, hk⟩

/-- All that one checksum exchange can do on the way to a next state. -/
theorem checksumStep_next {s t : State} {done more : State → Out} (h : checksumStep s done more = .next t) :
    ∃ i u, s.answerAt 0 = some i ∧ u = { s.consume.record (.xchg Config.crcFill i) with byte := s.byte + 1#10 } ∧
      ((s.byte + 1#10 = 2#10 ∧ done u = .next t) ∨ (s.byte + 1#10 ≠ 2#10 ∧ more u = .next t)) := by
  obtain ⟨i, hi, hk⟩ := xchg_next h
  refine ⟨i, _, hi, rfl, ?_⟩
  simp only [State.record_byte, State.consume_byte] at hk
  split at hk
  · next hb => exact .inl ⟨hb, hk⟩
  · next hb => exact .inr ⟨hb, hk⟩

end Sys2Proof.Machine
end

