-- ==== Sys2Proof/Laws/PerInstr.lean ====
section
/-! SUPPORT. Statements about each instruction as syntax, one lemma per constructor: how many bytes its request has. -/

namespace Sys2Proof.Laws.RequestLength

/-- The number of bytes of the format a port takes (30_encoding.md R80, R81, R98, R100, R101): 8 for a frame, 5 for a request
word, 3 for a result word, 1 or 2 for a response. -/
def bodyLength : Selector → Nat
  | .hostReq => 5
  | .frame => 8
  | .command => 8
  | .pollR1 => 1
  | .pollR2 => 1
  | .token => 1
  | .r1Value => 1
  | .r1Arm => 1
  | .classR1 => 1
  | .r2Arm => 2
  | .classR2 => 2
  | .result => 3
  | .readBlock => 0
  | .writeBlock => 0
  | .diagR1 => 2
  | .diagR2 => 3

/-- An instruction's request is one selector byte and the bytes of its format. -/
def Statement (i : Instr) : Prop := (encode i).length = 1 + bodyLength i.selector

theorem sendCommand (index : BitVec 6) (argHi argLo : Half) : Statement (.sendCommand index argHi argLo) := rfl
theorem cmd0 : Statement .cmd0 := rfl
theorem cmd1 : Statement .cmd1 := rfl
theorem cmd13 : Statement .cmd13 := rfl
theorem cmd17 (addr : Addr) : Statement (.cmd17 addr) := rfl
theorem cmd24 (addr : Addr) : Statement (.cmd24 addr) := rfl
theorem controlNoop (ignored : BitVec 32) : Statement (.controlNoop ignored) := rfl
theorem initializeCard (ignored : BitVec 32) : Statement (.initializeCard ignored) := rfl
theorem readSector (addr : Addr) : Statement (.readSector addr) := rfl
theorem writeSector (addr : Addr) : Statement (.writeSector addr) := rfl
theorem controlQuerySectorCount (ignored : BitVec 32) : Statement (.controlQuerySectorCount ignored) := rfl
theorem hostReqReserved5 (ignored : BitVec 32) : Statement (.hostReqReserved5 ignored) := rfl
theorem hostReqReserved6 (ignored : BitVec 32) : Statement (.hostReqReserved6 ignored) := rfl
theorem hostReqReserved7 (ignored : BitVec 32) : Statement (.hostReqReserved7 ignored) := rfl
theorem readR1 : Statement .readR1 := rfl
theorem readR2 : Statement .readR2 := rfl
theorem idle : Statement .idle := rfl
theorem dataStartToken : Statement .dataStartToken := rfl
theorem r1NoResponse : Statement .r1NoResponse := rfl
theorem r1Ready : Statement .r1Ready := rfl
theorem r1Initializing : Statement .r1Initializing := rfl
theorem r1EraseReset : Statement .r1EraseReset := rfl
theorem r1IllegalCommand : Statement .r1IllegalCommand := rfl
theorem r1CrcFailed : Statement .r1CrcFailed := rfl
theorem r1EraseSequenceError : Statement .r1EraseSequenceError := rfl
theorem r1AddressOutOfBounds : Statement .r1AddressOutOfBounds := rfl
theorem r1ArgumentOutOfBounds : Statement .r1ArgumentOutOfBounds := rfl
theorem r1Unknown (raw : Byte) : Statement (.r1Unknown raw) := rfl
theorem r2Ready : Statement .r2Ready := rfl
theorem r2Locked : Statement .r2Locked := rfl
theorem r2EraseSkipLockFailed : Statement .r2EraseSkipLockFailed := rfl
theorem r2GeneralError : Statement .r2GeneralError := rfl
theorem r2ControllerError : Statement .r2ControllerError := rfl
theorem r2EccFailure : Statement .r2EccFailure := rfl
theorem r2WriteProtectViolation : Statement .r2WriteProtectViolation := rfl
theorem r2InvalidEraseSelection : Statement .r2InvalidEraseSelection := rfl
theorem r2OutOfRange : Statement .r2OutOfRange := rfl
theorem r2DelegateR1 (high low : Byte) : Statement (.r2DelegateR1 high low) := rfl
theorem r2Unknown (low : Byte) : Statement (.r2Unknown low) := rfl
theorem resultOk (info : Half) : Statement (.resultOk info) := rfl
theorem resultNoResponse (info : Half) : Statement (.resultNoResponse info) := rfl
theorem resultUnexpectedResetResponse (info : Half) : Statement (.resultUnexpectedResetResponse info) := rfl
theorem resultCardNotReady (info : Half) : Statement (.resultCardNotReady info) := rfl
theorem resultStatusNotReady (info : Half) : Statement (.resultStatusNotReady info) := rfl
theorem resultProtocolError (info : Half) : Statement (.resultProtocolError info) := rfl
theorem resultFramingError (info : Half) : Statement (.resultFramingError info) := rfl
theorem resultBusyTimeout (info : Half) : Statement (.resultBusyTimeout info) := rfl
theorem rdblock : Statement .rdblock := rfl
theorem wrblock : Statement .wrblock := rfl
theorem diagR1Class (label : R1Label) (raw : Byte) : Statement (.diagR1Class label raw) := rfl
theorem diagR2Class (label : R2Label) (raw : Half) : Statement (.diagR2Class label raw) := rfl
theorem classifyR1 (b : Byte) : Statement (.classifyR1 b) := rfl
theorem classifyR2 (w : Half) : Statement (.classifyR2 w) := rfl

end Sys2Proof.Laws.RequestLength
end

