-- ==== Sys2Proof/Laws/Procedures.lean ====
section
/-! SUPPORT. One lemma for each procedure that says what it does when the transport's answers are known. -/

namespace Sys2Proof.Machine

/-- What is left of the transport after some answers depends on nothing else of the state. -/
theorem State.skip_congr (n : Nat) {s t : State} (hx : s.xport = t.xport) (hd : s.draws = t.draws) :
    (s.skip n).xport = (t.skip n).xport ∧ (s.skip n).draws = (t.skip n).draws := by
  induction n generalizing s t with
  | zero => exact ⟨hx, hd⟩
  | succ n ih =>
    refine ih ?_ ?_ <;> simp only [State.consume, hx] <;> split <;> simp_all <;> split <;> simp_all

/-- What is left of the transport after a frame or a poll began. -/
theorem State.skip_xport_congr (n : Nat) {s t : State} (hx : s.xport = t.xport) (hd : s.draws = t.draws) :
    (s.skip n).xport = (t.skip n).xport := (State.skip_congr n hx hd).1

/-- The free draws made after a frame or a poll began. -/
theorem State.skip_draws_congr (n : Nat) {s t : State} (hx : s.xport = t.xport) (hd : s.draws = t.draws) :
    (s.skip n).draws = (t.skip n).draws := (State.skip_congr n hx hd).2

/-- The frame bytes a counter selects. -/
theorem State.frameByte_eq (s : State) (n : Nat) (h : n < 8) :
    s.frameByte n = (frameBytes s.idxCmd s.argHi s.argLo)[n]'(by simpa [frameBytes] using h) := by
  unfold State.frameByte
  rw [List.getD_eq_getElem]

/-- The rest of a frame, from byte `8 - n` on. -/
theorem sendFrame_of_supplies (n : Nat) (hn : n ≤ 8) (s : State) (as : List Byte) (k : State → Out)
    (hb : s.byte = BitVec.ofNat 10 (8 - n)) (hlen : as.length = n) (hs : s.Supplies as) (hpos : 0 < n) :
    sendFrame n s k =
      k { s.skip n with
          byte := 8#10
          trace := (exchanges ((frameBytes s.idxCmd s.argHi s.argLo).drop (8 - n)) as).reverse ++ s.trace } := by
  induction n generalizing s as with
  | zero => omega
  | succ n ih =>
    cases as with
    | nil => simp at hlen
    | cons a as =>
      have hbyte : s.byte.toNat = 8 - (n + 1) := by rw [hb, BitVec.toNat_ofNat]; omega
      have hdrop : (frameBytes s.idxCmd s.argHi s.argLo).drop (8 - (n + 1))
          = s.frameByte s.byte.toNat :: (frameBytes s.idxCmd s.argHi s.argLo).drop (8 - n) := by
        rw [hbyte, State.frameByte_eq s _ (by omega), List.drop_eq_getElem_cons (by simp [frameBytes]; omega)]
        congr 2
        omega
      have hnext : s.byte + 1#10 = BitVec.ofNat 10 (8 - n) := by
        apply BitVec.eq_of_toNat_eq
        rw [BitVec.toNat_add, hbyte, BitVec.toNat_ofNat, BitVec.toNat_ofNat]
        omega
      rw [sendFrame, frameStep, xchg_of_answer hs.head]
      simp only [State.record_byte, State.consume_byte, hnext]
      cases n with
      | zero =>
        have has : as = [] := by simpa using hlen
        subst has
        rw [if_pos rfl]
        congr 1
        rw [hdrop]
        simp [exchanges, State.skip, State.record, frameBytes]
      | succ m =>
        have hne : BitVec.ofNat 10 (8 - (m + 1)) ≠ 8#10 := by
          intro h
          have := congrArg BitVec.toNat h
          rw [BitVec.toNat_ofNat, BitVec.toNat_ofNat] at this
          omega
        rw [if_neg hne]
        refine (ih (by omega) _ as ?_ (by simpa using hlen) ?_ (by omega)).trans ?_
        · rfl
        · exact State.Supplies.congr rfl rfl hs.tail
        congr 1
        rw [hdrop]
        ext1 <;> first
          | rfl
          | (simp [State.record, exchanges]; done)
          | exact State.skip_xport_congr _ rfl rfl
          | exact State.skip_draws_congr _ rfl rfl

/-- SEND_COMMAND when the transport's next 8 answers are known (R120, R121). -/
theorem sendCommand_of_supplies (i : BitVec 6) (h l : Half) (s : State) (as : List Byte) (k : State → Out)
    (hlen : as.length = 8) (hs : s.Supplies as) :
    sendCommand i h l s k =
      k { s.skip 8 with
          idxCmd := i, argHi := h, argLo := l, byte := 8#10
          trace := (exchanges (frameBytes i h l) as).reverse ++ s.trace } := by
  unfold sendCommand
  refine (sendFrame_of_supplies 8 (by omega) _ as k ?_ hlen ?_ (by omega)).trans ?_
  · rfl
  · exact State.Supplies.congr rfl rfl hs
  congr 1
  ext1 <;> first
    | rfl
    | (simp; done)
    | exact State.skip_xport_congr _ rfl rfl
    | exact State.skip_draws_congr _ rfl rfl

/-- The rest of a poll, after `8 - n` idle answers. -/
theorem pollR1_of_supplies (j n : Nat) (r : Byte) (s : State) (k : Byte → State → Out) (hn : n ≤ 8) (hj : j < n)
    (hp : s.poll = BitVec.ofNat 4 (8 - n)) (hr : r ≠ Config.idleByte ∨ j + 1 = n)
    (hs : s.Supplies (idleBytes j ++ [r])) :
    pollR1 n s k =
      k r { s.skip (j + 1) with
            poll := BitVec.ofNat 4 (8 - n + j + 1), r1 := r
            trace := (exchanges (idleBytes (j + 1)) (idleBytes j ++ [r])).reverse ++ s.trace } := by
  induction j generalizing n s with
  | zero =>
    cases n with
    | zero => omega
    | succ n =>
      have hnext : s.poll + 1#4 = BitVec.ofNat 4 (8 - (n + 1) + 1) := by
        rw [hp]; apply BitVec.eq_of_toNat_eq; simp
      rw [pollR1, pollStep, xchg_of_answer hs.head]
      simp only [State.record_poll, State.consume_poll, hnext]
      rw [if_pos]
      · congr 1
        ext1 <;> first
          | rfl
          | (simp; done)
          | simp [exchanges, idleBytes]
      · rcases hr with hr | hr
        · exact .inl hr
        · right
          have : n = 0 := by omega
          subst this
          rfl
  | succ j ih =>
    cases n with
    | zero => omega
    | succ n =>
      have hs' : s.Supplies (Config.idleByte :: (idleBytes j ++ [r])) := by
        simpa [idleBytes, List.replicate_succ] using hs
      have hnext : s.poll + 1#4 = BitVec.ofNat 4 (8 - n) := by
        rw [hp]; apply BitVec.eq_of_toNat_eq
        rw [BitVec.toNat_add, BitVec.toNat_ofNat, BitVec.toNat_ofNat, BitVec.toNat_ofNat]; omega
      have hne : BitVec.ofNat 4 (8 - n) ≠ 8#4 := by
        intro h
        have := congrArg BitVec.toNat h
        rw [BitVec.toNat_ofNat, BitVec.toNat_ofNat] at this
        omega
      rw [pollR1, pollStep, xchg_of_answer hs'.head]
      simp only [State.record_poll, State.consume_poll, hnext]
      rw [if_neg (by simp [hne])]
      refine (ih n _ (by omega) (by omega) ?_ (hr.imp id fun e => by omega) ?_).trans ?_
      · rfl
      · exact State.Supplies.congr rfl rfl hs'.tail
      congr 1
      have hcount : 8 - (n + 1) + (j + 1) + 1 = 8 - n + j + 1 := by omega
      ext1 <;> first
        | rfl
        | (simp; done)
        | (simp only [hcount]; done)
        | (simp [State.record, exchanges, idleBytes, List.replicate_succ]; done)
        | exact State.skip_xport_congr _ rfl rfl
        | exact State.skip_draws_congr _ rfl rfl

/-- READ_R1 when the answers it takes are known (R140, R141). -/
theorem readR1_of_supplies (p : List Byte) (r : Byte) (s : State) (k : Byte → State → Out) (hp : Polled p r)
    (hs : s.Supplies p) :
    readR1 s k =
      k r { s.skip p.length with
            poll := BitVec.ofNat 4 p.length, r1 := r
            trace := (exchanges (idleBytes p.length) p).reverse ++ s.trace } := by
  obtain ⟨j, hj, rfl, hr⟩ := hp
  unfold readR1
  have hl : (idleBytes j ++ [r]).length = j + 1 := by simp [idleBytes]
  rw [hl]
  refine (pollR1_of_supplies j 8 r _ k (by omega) hj ?_ hr ?_).trans ?_
  · rfl
  · exact State.Supplies.congr rfl rfl hs
  congr 1
  ext1 <;> first
    | rfl
    | (simp; done)
    | exact State.skip_xport_congr _ rfl rfl
    | exact State.skip_draws_congr _ rfl rfl

/-- Any eight answers begin with those of one READ_R1 (R141). -/
theorem polled_of_eight (as : List Byte) (h : as.length = 8) :
    ∃ n r, n ≤ 8 ∧ Polled (as.take n) r := by
  have go : ∀ (m : Nat) (as : List Byte), as.length = m + 1 → m + 1 ≤ 8 →
      ∃ j r, j ≤ m ∧ as.take (j + 1) = idleBytes j ++ [r] ∧ (r ≠ Config.idleByte ∨ j = m) := by
    intro m
    induction m with
    | zero =>
      intro as h _
      match as, h with
      | [a], _ => exact ⟨0, a, le_refl 0, rfl, .inr rfl⟩
    | succ m ih =>
      intro as h hm
      match as, h with
      | a :: as, h =>
        by_cases ha : a = Config.idleByte
        · obtain ⟨j, r, hj, ht, hr⟩ := ih as (by simpa using h) (by omega)
          refine ⟨j + 1, r, by omega, ?_, ?_⟩
          · simp [ht, ha, idleBytes, List.replicate_succ]
          · rcases hr with hr | hr
            · exact .inl hr
            · exact .inr (by omega)
        · exact ⟨0, a, Nat.zero_le _, rfl, .inl ha⟩
  obtain ⟨j, r, hj, ht, hr⟩ := go 7 as h (le_refl 8)
  exact ⟨j + 1, r, by omega, j, by simpa using Nat.lt_succ_of_le hj, ht, hr.imp id fun e => by simp [e]⟩

end Sys2Proof.Machine
end

