-- ==== Sys2Proof/Laws/Runs.lean ====
section
/-! SUPPORT. Steps and runs: when a step is the running operation's next transaction, and the whole run of a frame and of a
response poll. -/

namespace Sys2Proof.Machine

/-- While an operation runs and the host waits, a step is the operation's next transaction (R267). -/
theorem step_of_busy {s : State} (hb : s.busy = true) (hr : s.HostWaits) : step s = sequence s := by
  rcases hr with h | ⟨rest, h⟩ <;> simp [step, nextStep, h, advance, hb]

/-- All that a step can do: a reset; the running operation's next transaction, whatever move of the host was dropped beside it; the
refusal of a buffer write; waiting; a move of the host. -/
theorem step_cases (s : State) :
    (∃ line rest, s.host = .reset line :: rest ∧ step s = .next ({ s with host := rest }.blockReset line)) ∨
      (s.busy = true ∧ ∃ moves, step s = sequence { s with host := moves }) ∨
      (s.busy = true ∧ step s = .refused .bufferInUse) ∨
      (s.busy = false ∧ ∃ moves, step s = .next { s with host := moves }) ∨
      (s.busy = false ∧ ∃ m rest, s.host = m :: rest ∧ step s = takeMove m { s with host := rest }) := by
  rcases hh : s.host with _ | ⟨m, rest⟩
  · rcases (Bool.eq_false_or_eq_true s.busy).symm with hb | hb
    · have h : step s = .next s := by simp [step, nextStep, hh, advance, hb]
      exact .inr (.inr (.inr (.inl ⟨hb, s.host, h⟩)))
    · have h : step s = sequence s := by simp [step, nextStep, hh, advance, hb]
      exact .inr (.inl ⟨hb, s.host, h⟩)
  · cases m with
    | reset line => exact .inl ⟨line, rest, rfl, by simp [step, nextStep, hh]⟩
    | await =>
      rcases (Bool.eq_false_or_eq_true s.busy).symm with hb | hb
      · exact .inr (.inr (.inr (.inl ⟨hb, rest, by simp [step, nextStep, hh, hb]⟩)))
      · have h : step s = sequence s := by simp [step, nextStep, hh, hb]
        exact .inr (.inl ⟨hb, s.host, h⟩)
    | pause n =>
      cases n <;> rcases (Bool.eq_false_or_eq_true s.busy).symm with hb | hb
      · exact .inr (.inr (.inr (.inl ⟨hb, rest, by simp [step, nextStep, hh, hb, advance]⟩)))
      · exact .inr (.inl ⟨hb, rest, by simp [step, nextStep, hh, hb, advance]⟩)
      · exact .inr (.inr (.inr (.inl ⟨hb, _, by simp [step, nextStep, hh, hb, advance]; rfl⟩)))
      · exact .inr (.inl ⟨hb, _, by simp [step, nextStep, hh, hb, advance]; rfl⟩)
    | storeBuffer index value =>
      rcases (Bool.eq_false_or_eq_true s.busy).symm with hb | hb
      · exact .inr (.inr (.inr (.inr ⟨hb, _, rest, rfl, by simp [step, nextStep, hh, hb]⟩)))
      · exact .inr (.inr (.inl ⟨hb, by simp [step, nextStep, hh, hb, moveWhileBusy]⟩))
    | request bytes =>
      rcases (Bool.eq_false_or_eq_true s.busy).symm with hb | hb
      · exact .inr (.inr (.inr (.inr ⟨hb, _, rest, rfl, by simp [step, nextStep, hh, hb]⟩)))
      · exact .inr (.inl ⟨hb, rest, by simp [step, nextStep, hh, hb, moveWhileBusy]⟩)
    | setWriteAckMode mode =>
      rcases (Bool.eq_false_or_eq_true s.busy).symm with hb | hb
      · exact .inr (.inr (.inr (.inr ⟨hb, _, rest, rfl, by simp [step, nextStep, hh, hb]⟩)))
      · exact .inr (.inl ⟨hb, rest, by simp [step, nextStep, hh, hb, moveWhileBusy]⟩)
    | setBusyBound bound =>
      rcases (Bool.eq_false_or_eq_true s.busy).symm with hb | hb
      · exact .inr (.inr (.inr (.inr ⟨hb, _, rest, rfl, by simp [step, nextStep, hh, hb]⟩)))
      · exact .inr (.inl ⟨hb, rest, by simp [step, nextStep, hh, hb, moveWhileBusy]⟩)

/-- With `BUSY = 0` and no move of the host the block waits (R291). -/
theorem step_of_waiting {s : State} (hb : s.busy = false) (hh : s.host = []) : step s = .next s := by
  simp [step, nextStep, hh, advance, hb]

/-- With `BUSY = 0` the host's next request is decoded and run. -/
theorem step_of_request {s : State} {bytes : List Byte} {rest : List HostMove} (hb : s.busy = false)
    (hh : s.host = .request bytes :: rest) : step s = takeMove (.request bytes) { s with host := rest } := by
  simp [step, nextStep, hh, hb]

/-- No steps. -/
theorem Runs.refl (s : State) : Runs 0 s s := rfl

/-- One step. -/
theorem Runs.one {s t : State} (h : step s = .next t) : Runs 1 s t := by
  have h' : core.step s = .next t := h
  simp only [Runs, Host.Core.run, h']

/-- A step, then a run. -/
theorem Runs.cons {s t u : State} {n : Nat} (h : step s = .next t) (hr : Runs n t u) : Runs (n + 1) s u := by
  have h' : core.step s = .next t := h
  simp only [Runs, Host.Core.run, h']
  exact hr

/-- The first step of a run, and the rest of it. -/
theorem Runs.succ {s u : State} {n : Nat} (h : Runs (n + 1) s u) : ∃ t, step s = .next t ∧ Runs n t u := by
  simp only [Runs, Host.Core.run] at h
  split at h
  · next t ht => exact ⟨t, ht, h⟩
  · cases h
  · cases h

/-- A run, then a run. -/
theorem Runs.trans {s t u : State} {m n : Nat} (h : Runs m s t) (hr : Runs n t u) : Runs (m + n) s u := by
  induction m generalizing s with
  | zero =>
    have : s = t := by injection h
    subst this
    simpa using hr
  | succ m ih =>
    obtain ⟨s', hs, h'⟩ := h.succ
    rw [Nat.succ_add]
    exact Runs.cons hs (ih h')

/-- A run determines where it leads. -/
theorem Runs.unique {s t u : State} {n : Nat} (h : Runs n s t) (h' : Runs n s u) : t = u := by
  have := h.symm.trans h'
  injection this

/-- The rest of a frame in a phase that sends one and goes on with `f`. -/
theorem runs_frame_from (p : Phase) (f : State → State)
    (hp : ∀ u : State, u.phase = p → sequence u = frameStep u (fun t => .next (f t)) .next) (n : Nat) (hn : n ≤ 8)
    (hpos : 0 < n) (s : State) (as : List Byte) (hbusy : s.busy = true) (hphase : s.phase = p) (hr : s.HostWaits)
    (hb : s.byte = BitVec.ofNat 10 (8 - n)) (hlen : as.length = n) (hs : s.Supplies as) :
    Runs n s (f { s.skip n with
      byte := 8#10
      trace := (exchanges ((frameBytes s.idxCmd s.argHi s.argLo).drop (8 - n)) as).reverse ++ s.trace }) := by
  induction n generalizing s as with
  | zero => omega
  | succ n ih =>
    cases as with
    | nil => simp at hlen
    | cons a as =>
      have hbyte : s.byte.toNat = 8 - (n + 1) := by rw [hb, BitVec.toNat_ofNat]; omega
      have hdrop : (frameBytes s.idxCmd s.argHi s.argLo).drop (8 - (n + 1))
          = s.frameByte s.byte.toNat :: (frameBytes s.idxCmd s.argHi s.argLo).drop (8 - n) := by
        rw [hbyte, State.frameByte_eq s _ (by omega), List.drop_eq_getElem_cons (by simp [frameBytes]; omega)]
        congr 2
        omega
      have hnext : s.byte + 1#10 = BitVec.ofNat 10 (8 - n) := by
        apply BitVec.eq_of_toNat_eq
        rw [BitVec.toNat_add, hbyte, BitVec.toNat_ofNat, BitVec.toNat_ofNat]
        omega
      have hstep := step_of_busy hbusy hr
      rw [hp s hphase, frameStep, xchg_of_answer hs.head] at hstep
      simp only [State.record_byte, State.consume_byte, hnext] at hstep
      cases n with
      | zero =>
        have has : as = [] := by simpa using hlen
        subst has
        rw [if_pos rfl] at hstep
        convert Runs.one hstep using 2
        rw [hdrop]
        simp [exchanges, State.skip, State.record, frameBytes]
      | succ m =>
        have hne : BitVec.ofNat 10 (8 - (m + 1)) ≠ 8#10 := by
          intro h
          have := congrArg BitVec.toNat h
          rw [BitVec.toNat_ofNat, BitVec.toNat_ofNat] at this
          omega
        rw [if_neg hne] at hstep
        have hrest := ih (by omega) (by omega)
          { s.consume.record (.xchg (s.frameByte s.byte.toNat) a) with byte := BitVec.ofNat 10 (8 - (m + 1)) } as
          (by simpa using hbusy) (by simpa using hphase) (by simpa [State.HostWaits] using hr) rfl
          (by simpa using hlen) (State.Supplies.congr rfl rfl hs.tail)
        convert Runs.cons hstep hrest using 2
        rw [hdrop]
        ext1 <;> first
          | rfl
          | (simp [State.record, exchanges]; done)
          | exact State.skip_xport_congr (m + 1) (s := s.consume) rfl rfl
          | exact State.skip_draws_congr (m + 1) (s := s.consume) rfl rfl

/-- A whole frame: eight steps (R120, R121). -/
theorem runs_frame (p : Phase) (f : State → State)
    (hp : ∀ u : State, u.phase = p → sequence u = frameStep u (fun t => .next (f t)) .next) (s : State)
    (as : List Byte) (hbusy : s.busy = true) (hphase : s.phase = p) (hr : s.HostWaits) (hb : s.byte = 0#10)
    (hlen : as.length = 8) (hs : s.Supplies as) :
    Runs 8 s (f { s.skip 8 with
      byte := 8#10
      trace := (exchanges (frameBytes s.idxCmd s.argHi s.argLo) as).reverse ++ s.trace }) :=
  runs_frame_from p f hp 8 (le_refl 8) (by omega) s as hbusy hphase hr hb hlen hs

/-- The rest of a response poll in a phase that makes one and goes on with `f`. -/
theorem runs_poll_from (p : Phase) (f : Byte → State → State)
    (hp : ∀ u : State, u.phase = p → sequence u = pollStep u (fun r t => .next (f r t)) .next) (j n : Nat) (r : Byte)
    (s : State) (hn : n ≤ 8) (hj : j < n) (hbusy : s.busy = true) (hphase : s.phase = p) (hres : s.HostWaits)
    (hpoll : s.poll = BitVec.ofNat 4 (8 - n)) (hr : r ≠ Config.idleByte ∨ j + 1 = n)
    (hs : s.Supplies (idleBytes j ++ [r])) :
    Runs (j + 1) s (f r { s.skip (j + 1) with
      poll := BitVec.ofNat 4 (8 - n + j + 1), r1 := r
      trace := (exchanges (idleBytes (j + 1)) (idleBytes j ++ [r])).reverse ++ s.trace }) := by
  induction j generalizing n s with
  | zero =>
    cases n with
    | zero => omega
    | succ n =>
      have hnext : s.poll + 1#4 = BitVec.ofNat 4 (8 - (n + 1) + 1) := by
        rw [hpoll]; apply BitVec.eq_of_toNat_eq; simp
      have hstep := step_of_busy hbusy hres
      rw [hp s hphase, pollStep, xchg_of_answer hs.head] at hstep
      simp only [State.record_poll, State.consume_poll, hnext] at hstep
      rw [if_pos] at hstep
      · convert Runs.one hstep using 2
        ext1 <;> first
          | rfl
          | (simp; done)
          | simp [exchanges, idleBytes]
      · rcases hr with hr | hr
        · exact .inl hr
        · right
          have : n = 0 := by omega
          subst this
          rfl
  | succ j ih =>
    cases n with
    | zero => omega
    | succ n =>
      have hs' : s.Supplies (Config.idleByte :: (idleBytes j ++ [r])) := by
        simpa [idleBytes, List.replicate_succ] using hs
      have hnext : s.poll + 1#4 = BitVec.ofNat 4 (8 - n) := by
        rw [hpoll]; apply BitVec.eq_of_toNat_eq
        rw [BitVec.toNat_add, BitVec.toNat_ofNat, BitVec.toNat_ofNat, BitVec.toNat_ofNat]; omega
      have hne : BitVec.ofNat 4 (8 - n) ≠ 8#4 := by
        intro h
        have := congrArg BitVec.toNat h
        rw [BitVec.toNat_ofNat, BitVec.toNat_ofNat] at this
        omega
      have hstep := step_of_busy hbusy hres
      rw [hp s hphase, pollStep, xchg_of_answer hs'.head] at hstep
      simp only [State.record_poll, State.consume_poll, hnext] at hstep
      rw [if_neg (by simp [hne])] at hstep
      have hrest := ih n
        { s.consume.record (.xchg Config.idleByte Config.idleByte) with poll := BitVec.ofNat 4 (8 - n) }
        (by omega) (by omega) (by simpa using hbusy) (by simpa using hphase) (by simpa [State.HostWaits] using hres)
        rfl (hr.imp id fun e => by omega) (State.Supplies.congr rfl rfl hs'.tail)
      convert Runs.cons hstep hrest using 2
      have hcount : 8 - (n + 1) + (j + 1) + 1 = 8 - n + j + 1 := by omega
      ext1 <;> first
        | rfl
        | (simp; done)
        | (simp only [hcount]; done)
        | (simp [State.record, exchanges, idleBytes, List.replicate_succ]; done)
        | exact State.skip_xport_congr (j + 1) (s := s.consume) rfl rfl
        | exact State.skip_draws_congr (j + 1) (s := s.consume) rfl rfl

/-- A whole response poll (R140, R141). -/
theorem runs_poll (p : Phase) (f : Byte → State → State)
    (hp : ∀ u : State, u.phase = p → sequence u = pollStep u (fun r t => .next (f r t)) .next) (s : State)
    (ps : List Byte) (r : Byte) (hbusy : s.busy = true) (hphase : s.phase = p) (hres : s.HostWaits)
    (hpoll : s.poll = 0#4) (hps : Polled ps r) (hs : s.Supplies ps) :
    Runs ps.length s (f r { s.skip ps.length with
      poll := BitVec.ofNat 4 ps.length, r1 := r
      trace := (exchanges (idleBytes ps.length) ps).reverse ++ s.trace }) := by
  obtain ⟨j, hj, rfl, hr⟩ := hps
  have hl : (idleBytes j ++ [r]).length = j + 1 := by simp [idleBytes]
  have h := runs_poll_from p f hp j 8 r s (le_refl 8) hj hbusy hphase hres hpoll hr hs
  rw [hl]
  convert h using 3
  simp

/-! ### The transactions of a data block made in one step -/

/-- The last transaction of `runUntil`. -/
theorem runUntil_last {last : Phase} {n : Nat} {s t : State} (h : sequence s = .next t) (hp : t.phase = last) :
    runUntil last (n + 1) s = .next t := by
  simp [runUntil, h, hp]

/-- One transaction of `runUntil`, and the rest of it. -/
theorem runUntil_more {last : Phase} {n : Nat} {s t : State} (h : sequence s = .next t) (hp : t.phase ≠ last) :
    runUntil last (n + 1) s = runUntil last n t := by
  simp [runUntil, h, hp]

/-- What every transaction of the running operation keeps, `runUntil` keeps. -/
theorem runUntil_keeps {last : Phase} (P : State → Prop) (hstep : ∀ u v, P u → sequence u = .next v → P v) (n : Nat)
    {s t : State} (hs : P s) (h : runUntil last n s = .next t) : P t := by
  induction n generalizing s with
  | zero => cases h; exact hs
  | succ n ih =>
    unfold runUntil at h
    split at h
    · next u hu =>
      split at h
      · cases h; exact hstep s t hs hu
      · exact ih (hstep s u hs hu) h
    · cases h
    · cases h

end Sys2Proof.Machine
end

