-- ==== Sys2Proof/Tests/Slice0.lean ====
section
/-! SUPPORT. The model's own tests: ill-formed terms refused, words written out from the spec decoded, single steps against the
vectors of 95_test_vectors.md, and one witness for the hypotheses of each obligation. -/

namespace Sys2Proof.Machine

/-! ### Well-formedness: one ill-formed term for each check -/

theorem test_wf_cmd17_above_23_bits : Instr.wellFormed (.cmd17 0x00800000#32) = false := by decide
theorem test_wf_cmd24_above_23_bits : Instr.wellFormed (.cmd24 0xFFFFFFFF#32) = false := by decide
theorem test_wf_r1_unknown_flag : ∀ n : Fin 7, Instr.wellFormed (.r1Unknown (BitVec.ofNat 8 (2 ^ n.val))) = false := by
  decide
theorem test_wf_r2_delegate_zero_high : Instr.wellFormed (.r2DelegateR1 0x00#8 0x03#8) = false := by decide
theorem test_wf_r2_unknown_table_entry : Instr.wellFormed (.r2Unknown 0x80#8) = false := by decide
theorem test_wf_no_response_info : Instr.wellFormed (.resultNoResponse 0x0000#16) = false := by decide
theorem test_wf_unexpected_reset_response_info :
    Instr.wellFormed (.resultUnexpectedResetResponse 0x0001#16) = false ∧
      Instr.wellFormed (.resultUnexpectedResetResponse 0x00FF#16) = false ∧
      Instr.wellFormed (.resultUnexpectedResetResponse 0x0100#16) = false := by decide
theorem test_wf_card_not_ready_info :
    Instr.wellFormed (.resultCardNotReady 0x0000#16) = false ∧
      Instr.wellFormed (.resultCardNotReady 0x0101#16) = false := by decide
theorem test_wf_status_not_ready_info : Instr.wellFormed (.resultStatusNotReady 0x0000#16) = false := by decide
theorem test_wf_protocol_error_info : Instr.wellFormed (.resultProtocolError 0x0100#16) = false := by decide
theorem test_wf_framing_error_info : Instr.wellFormed (.resultFramingError 0x0000#16) = false := by decide
theorem test_wf_busy_timeout_info : Instr.wellFormed (.resultBusyTimeout 0x0001#16) = false := by decide
theorem test_wf_diag_r1_label : Instr.wellFormed (.diagR1Class (.unknown 0x03#8) 0x05#8) = false := by decide
theorem test_wf_diag_r2_label :
    Instr.wellFormed (.diagR2Class (.unknown 0x0003#16) 0x0005#16) = false ∧
      Instr.wellFormed (.diagR2Class (.ofR1 (.unknown 0x05#8)) 0x0600#16) = false := by decide

/-! ### Decoding: words written out from 30_encoding.md and the vectors F1 to F8 and O1 to O11 -/

/-- F7: `FF 6A 12 34 AB CD 95 FF`. -/
theorem test_decode_send_command :
    decodeTableWord 64 0xFF6A1234ABCD95FF = some (.sendCommand 42#6 0x1234#16 0xABCD#16) := by decide
/-- F6: the largest operands. -/
theorem test_decode_send_command_largest :
    decodeTableWord 64 0xFF7FFFFFFFFF95FF = some (.sendCommand 63#6 0xFFFF#16 0xFFFF#16) := by decide
/-- F1, F2, F3. -/
theorem test_decode_cmd0_cmd1_cmd13 :
    decodeTableWord 64 0xFF400000000095FF = some .cmd0 ∧ decodeTableWord 64 0xFF410000000095FF = some .cmd1 ∧
      decodeTableWord 64 0xFF4D0000000095FF = some .cmd13 := by decide
/-- F4, F5, O7. -/
theorem test_decode_cmd17_cmd24 :
    decodeTableWord 64 0xFF510000020095FF = some (.cmd17 1#32) ∧
      decodeTableWord 64 0xFF5802468A0095FF = some (.cmd24 0x00012345#32) ∧
      decodeTableWord 64 0xFF51FFFFFE0095FF = some (.cmd17 0x007FFFFF#32) := by decide
/-- A wrong pad, flag bit or checksum is no frame (R81). -/
theorem test_decode_bad_frames :
    decode [0x01#8, 0xFE#8, 0x40#8, 0#8, 0#8, 0#8, 0#8, 0x95#8, 0xFF#8] = .error .framePattern ∧
      decode [0x01#8, 0xFF#8, 0x80#8, 0#8, 0#8, 0#8, 0#8, 0x95#8, 0xFF#8] = .error .framePattern ∧
      decode [0x01#8, 0xFF#8, 0x40#8, 0#8, 0#8, 0#8, 0#8, 0x94#8, 0xFF#8] = .error .framePattern ∧
      decode [0x02#8, 0xFF#8, 0x40#8, 0#8, 0#8, 0#8, 1#8, 0x95#8, 0xFF#8] = .error .notACommand := by decide
/-- R98: `op` in bits 34 to 32, `addr` below. -/
theorem test_decode_host_requests :
    decodeTableWord 40 0x0000000000 = some (.controlNoop 0#32) ∧
      decodeTableWord 40 0x0100000000 = some (.initializeCard 0#32) ∧
      decodeTableWord 40 0x0200000001 = some (.readSector 1#32) ∧
      decodeTableWord 40 0x0300ABCDEF = some (.writeSector 0x00ABCDEF#32) ∧
      decodeTableWord 40 0x0400000000 = some (.controlQuerySectorCount 0#32) := by decide
theorem test_decode_reserved_requests :
    decodeTableWord 40 0x0500000000 = some (.hostReqReserved5 0#32) ∧
      decodeTableWord 40 0x0600000000 = some (.hostReqReserved6 0#32) ∧
      decodeTableWord 40 0x07FFFFFFFF = some (.hostReqReserved7 0xFFFFFFFF#32) ∧
      decodeTableWord 40 0x0800000000 = none := by decide
theorem test_decode_polls_and_markers :
    decode [0x03#8, 0xFF#8] = .ok .readR1 ∧ decode [0x04#8, 0xFF#8] = .ok .readR2 ∧
      decodeTableWord 8 0xFF = some .idle ∧ decodeTableWord 8 0xFE = some .dataStartToken := by decide
theorem test_decode_r1_values :
    decode [0x06#8, 0xFF#8] = .ok .r1NoResponse ∧ decodeTableWord 8 0x00 = some .r1Ready := by decide
theorem test_decode_r1_arms :
    decodeTableWord 8 0x01 = some .r1Initializing ∧ decodeTableWord 8 0x02 = some .r1EraseReset ∧
      decodeTableWord 8 0x04 = some .r1IllegalCommand ∧ decodeTableWord 8 0x08 = some .r1CrcFailed ∧
      decodeTableWord 8 0x10 = some .r1EraseSequenceError ∧ decodeTableWord 8 0x20 = some .r1AddressOutOfBounds ∧
      decodeTableWord 8 0x40 = some .r1ArgumentOutOfBounds ∧ decodeTableWord 8 0x80 = some (.r1Unknown 0x80#8) := by
  decide
theorem test_decode_r2_arms :
    decodeTableWord 16 0x0000 = some .r2Ready ∧ decodeTableWord 16 0x0001 = some .r2Locked ∧
      decodeTableWord 16 0x0002 = some .r2EraseSkipLockFailed ∧ decodeTableWord 16 0x0004 = some .r2GeneralError ∧
      decodeTableWord 16 0x0008 = some .r2ControllerError ∧ decodeTableWord 16 0x0010 = some .r2EccFailure ∧
      decodeTableWord 16 0x0020 = some .r2WriteProtectViolation ∧
      decodeTableWord 16 0x0040 = some .r2InvalidEraseSelection ∧ decodeTableWord 16 0x0080 = some .r2OutOfRange := by
  decide
theorem test_decode_r2_default_arms :
    decodeTableWord 16 0x0101 = some (.r2DelegateR1 0x01#8 0x01#8) ∧
      decodeTableWord 16 0x00FF = some (.r2Unknown 0xFF#8) := by decide
theorem test_decode_results :
    decodeTableWord 24 0x000000 = some (.resultOk 0#16) ∧
      decodeTableWord 24 0x0100FF = some (.resultNoResponse 0x00FF#16) ∧
      decodeTableWord 24 0x020004 = some (.resultUnexpectedResetResponse 4#16) ∧
      decodeTableWord 24 0x030001 = some (.resultCardNotReady 1#16) ∧
      decodeTableWord 24 0x040400 = some (.resultStatusNotReady 0x0400#16) ∧
      decodeTableWord 24 0x050009 = some (.resultProtocolError 9#16) ∧
      decodeTableWord 24 0x0600FF = some (.resultFramingError 0x00FF#16) ∧
      decodeTableWord 24 0x070000 = some (.resultBusyTimeout 0#16) ∧ decodeTableWord 24 0x080000 = none := by decide
/-- The formats without a bit pattern of their own, and the classifier's procedures, at the model's ports (log entry 7). -/
theorem test_decode_model_ports :
    decode [0x08#8, 0x05#8] = .ok (.classifyR1 0x05#8) ∧ decode [0x0A#8, 0x04#8, 0x00#8] = .ok (.classifyR2 0x0400#16) ∧
      decode [0x0C#8] = .ok .rdblock ∧ decode [0x0D#8] = .ok .wrblock ∧
      decode [0x0E#8, 0x02#8, 0x04#8] = .ok (.diagR1Class .illegalCommand 0x04#8) ∧
      decode [0x0F#8, 0x09#8, 0x00#8, 0x03#8] = .ok (.diagR2Class (.unknown 0x0003#16) 0x0003#16) ∧
      decode [0x0E#8, 0x08#8, 0x04#8] = .error .diagLabel ∧ decode [0x10#8] = .error .unknownSelector ∧
      decode [] = .error .empty := by decide

/-! ### The operand vectors O3 to O11 -/

theorem test_byte_offset_vectors :
    byteOffset 0x0000007F#32 = 0x0000FE00#32 ∧ byteOffset 0x00000080#32 = 0x00010000#32 ∧
      byteOffset 0x00ABCDEF#32 = 0x579BDE00#32 ∧ byteOffset 0x00800001#32 = 0x00000200#32 ∧
      byteOffset 0xFFFFFFFF#32 = 0xFFFFFE00#32 := by decide

/-! ### Single steps -/

/-- A state whose transport answers these bytes and then `0xFF` for ever. -/
def answering (script : List Byte) : State :=
  { State.reset with xport := { script := script, after := .constant 0xFF#8, inits := none } }

/-- An operation of this code in this phase, with that transport. -/
def running (p : Phase) (op : BitVec 3) (script : List Byte) : State :=
  { answering script with busy := true, phase := p, op := op }

/-- Whether an outcome is a next state of which something holds. -/
def nextIs (o : Out) (p : State → Bool) : Bool :=
  match o with
  | .next t => p t
  | _ => false

/-- F5: CMD24 of sector `0x00012345`. -/
theorem test_cmd24_bytes :
    nextIs (exec (.cmd24 0x00012345#32) (answering [])) (fun t => newOuts [] t.trace
      = [0xFF#8, 0x58#8, 0x02#8, 0x46#8, 0x8A#8, 0x00#8, 0x95#8, 0xFF#8]) = true := by decide
/-- A4: `FF` eight times, then `00`: eight exchanges, `FF` returned. -/
theorem test_read_r1_gives_up :
    nextIs (exec .readR1 (answering (idleBytes 8 ++ [0x00#8]))) (fun t =>
      t.trace.length = 8 ∧ t.returned = .byte 0xFF#8 ∧ t.xport.script = [0x00#8]) = true := by decide
/-- A3: the eighth answer is taken. -/
theorem test_read_r1_last_poll :
    nextIs (exec .readR1 (answering (idleBytes 7 ++ [0x00#8]))) (fun t =>
      t.trace.length = 8 ∧ t.returned = .byte 0x00#8) = true := by decide
/-- B4: the low byte is exchanged though the high byte is "no response". -/
theorem test_read_r2_no_response :
    nextIs (exec .readR2 (answering [])) (fun t => t.trace.length = 9 ∧ t.returned = .word 0xFFFF#16) = true := by
  decide
/-- B7: the low byte is not polled for. -/
theorem test_read_r2_low_is_one_exchange :
    nextIs (exec .readR2 (answering [0x00#8, 0xFF#8, 0x00#8])) (fun t =>
      t.returned = .word 0x00FF#16 ∧ t.xport.script = [0x00#8]) = true := by decide
/-- Section 2.4: `41` is `Unknown`. -/
theorem test_classify_r1_two_flags :
    nextIs (exec (.classifyR1 0x41#8) (answering [])) (fun t => t.returned = .r1Label (.unknown 0x41#8)) = true := by
  decide
/-- Section 2.5: `0101` is delegated, the low byte plays no part. -/
theorem test_classify_r2_delegates :
    nextIs (exec (.classifyR2 0x0101#16) (answering [])) (fun t => t.returned = .r2Label (.ofR1 .initializing))
      = true := by decide
/-- Section 2.5: `0500` is `Unknown(05)`. -/
theorem test_classify_r2_delegated_unknown :
    nextIs (exec (.r2DelegateR1 0x05#8 0x00#8) (answering [])) (fun t =>
      t.returned = .r2Label (.ofR1 (.unknown 0x05#8))) = true := by decide
/-- S10: the acknowledgment outranks the wrong token. -/
theorem test_read_ack_outranks_token :
    nextIs (step { running .rToken 2#3 [0x09#8] with ack := 0x05#8 }) (fun t =>
      t.result = .err (.io (.protocolError 0x05#8)) ∧ t.diag = [.r1Class (.unknown 0x05#8) 0x05#8] ∧ t.busy = false)
      = true := by decide
/-- S8: a timeout outranks the bad acknowledgment. -/
theorem test_read_timeout_outranks_ack :
    nextIs (step { running .rToken 2#3 [] with ack := 0x04#8, cnt := 65534 }) (fun t =>
      t.result = .err (.io .framingError) ∧ t.diag = [.r1Class (.unknown 0xFF#8) 0xFF#8]) = true := by decide
/-- S3: a token on the last permitted poll is accepted. -/
theorem test_read_token_last_poll :
    nextIs (step { running .rToken 2#3 [0xFE#8] with cnt := 65534 }) (fun t => t.phase = .rData) = true := by decide
/-- S14: the last payload byte, `FF`, is data. -/
theorem test_read_last_payload_byte :
    nextIs (step { running .rData 2#3 [] with byte := 511#10 }) (fun t =>
      Memory.read t.buf 511 = 0xFF#8 ∧ t.phase = .rCrc ∧ t.byte = 0#10) = true := by decide
/-- I12a and I3: after the 512th attempt only the last response decides. -/
theorem test_initialize_512th_attempt :
    nextIs (step { running .iResetResp 1#3 [] with initState := .resetWait, cnt := 511, poll := 7#4 }) (fun t =>
      t.result = .err (.init .noResponse) ∧ t.diag = []) = true ∧
    nextIs (step { running .iResetResp 1#3 [0x00#8] with initState := .resetWait, cnt := 511 }) (fun t =>
      t.result.word = some (2#4, 0x0000#16) ∧ t.diag = [.r1Class (.unknown 0x00#8) 0x00#8]) = true := by decide
/-- I16: an error value in the second stage does not end the loop. -/
theorem test_initialize_error_value_goes_on :
    nextIs (step { running .iOpCondResp 1#3 [0x05#8] with initState := .opCondWait }) (fun t =>
      t.phase = .iOpCondCmd ∧ t.cnt = 1 ∧ t.diag = [.r1Class (.unknown 0x05#8) 0x05#8]) = true := by decide
/-- I14: the status word `0400`. -/
theorem test_initialize_status_word :
    nextIs (step { running .iStatusLo 1#3 [0x00#8] with initState := .statusCheck, r1 := 0x04#8 }) (fun t =>
      t.result.word = some (4#4, 0x0400#16) ∧ t.diag = [.r2Class (.ofR1 .illegalCommand) 0x0400#16] ∧
        t.initState = .failed (.statusNotReady 0x0400#16)) = true := by decide
/-- W-vectors: a busy poll answered `FF` ends the write, any other value goes on without a bound (R227, R228). -/
theorem test_write_busy_poll :
    nextIs (step (running .wBusy 3#3 [])) (fun t => t.result = .ok 0#16 ∧ t.busy = false) = true ∧
      nextIs (step (running .wBusy 3#3 [0x00#8])) (fun t => t.phase = .wBusy ∧ t.cnt = 1 ∧ t.busy = true) = true ∧
      nextIs (step { running .wBusy 3#3 [0x00#8] with busyBound := some 1 }) (fun t =>
        t.result = .err (.io .busyTimeout) ∧ t.diag = []) = true := by decide
/-- The payload byte sent is the buffer's (R225). -/
theorem test_write_sends_the_buffer_byte :
    nextIs (step { running .wData 3#3 [0x12#8] with buf := [(3, 0xFE#8)], byte := 3#10 }) (fun t =>
      t.trace = [.xchg 0xFE#8 0x12#8] ∧ t.byte = 4#10 ∧ t.buf = [(3, 0xFE#8)]) = true := by decide
/-- A placed word runs: the host's next request is CMD0's row. -/
theorem test_placed_word_runs :
    nextIs (step ((answering []).withFetchWord 64 0xFF400000000095FF)) (fun t => t.trace.length = 8 ∧ t.host = [])
      = true := by decide
/-- A placed request word starts READ_SECTOR. -/
theorem test_request_starts :
    nextIs (step (State.reset.withFetchWord 40 0x0200000001)) (fun t => t.phase = .rCmd ∧ t.argLo = 0x0200#16) = true := by
  decide
/-- The host cannot take up a data block without its command, nor end an operation that does not run (R306, R29, R187). -/
theorem test_no_resume_and_no_result_from_the_host :
    step { State.reset with host := [.request [0x0C#8]] } = .next State.reset ∧
      step { State.reset with host := [.request [0x0D#8]] } = .next State.reset ∧
      step { State.reset with host := [.request [0x0B#8, 0x01#8, 0x00#8, 0xFF#8]] } = .next State.reset := ⟨rfl, rfl, rfl⟩
/-- RDBLOCK after an acknowledgment, with a wrong token (S9). -/
theorem test_rdblock_wrong_token :
    nextIs (exec .rdblock (running .rToken 2#3 [0xFF#8, 0x09#8])) (fun t =>
      t.result = .err (.io (.protocolError 0x09#8)) ∧ t.trace.length = 2 ∧ t.busy = false) = true := by decide
/-- `XportInit` can hang where the exchanges would not, and complete where they would hang (R261). -/
theorem test_xport_init_hangs_alone :
    step { running .iXportInit 1#3 [0x01#8] with xport := { script := [0x01#8], after := .free, inits := some 0 } }
        = .fault .transportNeverCompletes ∧
      nextIs (step { running .iXportInit 1#3 [] with xport := { script := [], after := .hung, inits := some 1 } })
        (fun t => t.phase = .iResetCmd ∧ t.xport.inits = some 0 ∧ t.trace = [.init]) = true := ⟨rfl, by decide⟩
/-- A request or a configuration write while BUSY is 1 is gone afterwards and had no effect; a buffer write has no step. -/
theorem test_moves_while_busy :
    nextIs (step { running .wBusy 3#3 [0x00#8] with host := [.setWriteAckMode .strict] }) (fun t =>
      t.writeAckMode = .permissive ∧ t.host = [] ∧ t.cnt = 1) = true ∧
    step { running .wBusy 3#3 [0x00#8] with host := [.storeBuffer 0 1#8] } = .refused .bufferInUse := ⟨by decide, rfl⟩
/-- A transaction that never completes stops the machine (R262). -/
theorem test_hung_line_faults :
    step { running .wResp 3#3 [] with xport := { script := [], after := .hung, inits := none } } = .fault .transportNeverCompletes :=
  rfl
/-- A write of what an unlisted index reads as removes the entry. -/
theorem test_memory_write_removes :
    Memory.write [(3, 0x11#8)] 3 0x00#8 = [] ∧ Memory.write [(3, 0x11#8)] 1 0x22#8 = [(1, 0x22#8), (3, 0x11#8)] := by
  decide

/-! ### Witnesses: states and operands that meet all hypotheses of each obligation together -/

/-- A response that comes with the first answer. -/
theorem polled_at_once (r : Byte) (h : r ≠ 0xFF#8) : Polled [r] r := ⟨0, by decide, rfl, .inl h⟩
/-- A response that comes with the eighth and last answer, the idle byte among them. -/
theorem polled_at_last (r : Byte) : Polled (idleBytes 7 ++ [r]) r := ⟨7, by decide, rfl, .inr rfl⟩
/-- A host without moves waits. -/
theorem hostWaits_of_nil {s : State} (h : s.host = []) : s.HostWaits := .inl h
/-- A transport answers what it lists. -/
theorem answering_supplies (as : List Byte) : (answering as).Supplies as :=
  State.Supplies.of_script (rest := []) (by simp [answering])

/-- Every `XportInit()` of that transport completes. -/
theorem answering_inits (as : List Byte) : (answering as).xport.inits ≠ some 0 := by simp [answering]

/-- A frame and a response with the first answer: one attempt. -/
def attemptOf (r : Byte) : Attempt := { frame := idleBytes 8, polls := [r], response := r }
theorem attemptOf_valid (r : Byte) (h : r ≠ 0xFF#8) : (attemptOf r).Valid := ⟨rfl, polled_at_once r h⟩
theorem silent_valid : Attempt.silent.Valid := ⟨rfl, polled_at_last 0xFF#8⟩

/-- The states the whole-machine rules are witnessed at meet the invariant. -/
theorem inv_of_read_token : (running .rToken 2#3 [0xFE#8]).Inv :=
  ⟨rfl, by simp [running], by simp [running, answering, State.reset], by simp [running, Phase.opCode], trivial,
    by simp [State.CountersFit, running, answering, State.reset, Config.nToken],
    by simp [State.InitStateFits, running, answering, State.reset], trivial⟩
theorem inv_of_read_frame : ({ running .rCmd 2#3 [] with idxCmd := 17#6 } : State).Inv :=
  ⟨rfl, by simp [running], by simp [running, answering, State.reset], by simp [running, Phase.opCode],
    ⟨rfl, by decide, by decide⟩, by simp [State.CountersFit, running, answering, State.reset],
    by simp [State.InitStateFits, running, answering, State.reset], trivial⟩
theorem inv_of_last_poll (n : Nat) (h : n = 31999) (r : Byte) :
    ({ running .iOpCondResp 1#3 [r] with cnt := n, initState := .opCondWait } : State).Inv :=
  ⟨rfl, by simp [running], by simp [running, answering, State.reset], by simp [running, Phase.opCode], trivial,
    by simp [State.CountersFit, running, answering, State.reset, Config.nOpCond, h], rfl, trivial⟩
theorem inv_of_last_payload_byte :
    ({ running .rData 2#3 [0x5A#8] with byte := 511#10, tok := 0xFE#8 } : State).Inv :=
  ⟨rfl, by simp [running], by simp [running, answering, State.reset], by simp [running, Phase.opCode], trivial,
    by simp [State.CountersFit, running, answering, State.reset, Config.sectorSize],
    by simp [State.InitStateFits, running, answering, State.reset], ⟨rfl, rfl⟩⟩
theorem inv_of_hung_busy_poll :
    ({ running .wBusy 3#3 [] with xport := { script := [], after := .hung, inits := none }, busyBound := some 1 } : State).Inv :=
  ⟨rfl, by simp [running], by simp, by simp [running, Phase.opCode], trivial,
    by simp [State.CountersFit, running, answering, State.reset],
    by simp [State.InitStateFits, running, answering, State.reset], trivial⟩
theorem inv_of_hung_init :
    ({ running .iXportInit 1#3 [0x01#8] with xport := { script := [0x01#8], after := .free, inits := some 0 } } : State).Inv :=
  ⟨rfl, by simp [running], by simp [running, answering, State.reset], by simp [running, Phase.opCode], trivial, trivial, rfl,
    trivial⟩
theorem inv_of_reset : State.reset.Inv :=
  ⟨rfl, by simp [State.reset], by simp [State.reset], by simp [State.reset, Phase.opCode], trivial, trivial,
    by simp [State.InitStateFits, State.reset], trivial⟩

theorem witness_EncodedInstructionDecodesToItself :
    Instr.wellFormed (.cmd17 0x007FFFFF#32) = true ∧ Instr.wellFormed (.r1Unknown 0x00#8) = true ∧
      Instr.wellFormed (.r2Unknown 0x03#8) = true ∧ Instr.wellFormed (.r2DelegateR1 0x01#8 0x00#8) = true ∧
      Instr.wellFormed (.resultUnexpectedResetResponse 0x00FE#16) = true ∧
      Instr.wellFormed (.resultCardNotReady 0x00FF#16) = true ∧
      Instr.wellFormed (.diagR2Class (.ofR1 (.unknown 0x05#8)) 0x0500#16) = true := by decide

theorem witness_DecodedBytesAreTheEncoding :
    decode [0x00#8, 0x07#8, 0xFF#8, 0xFF#8, 0xFF#8, 0xFF#8] = .ok (.hostReqReserved7 0xFFFFFFFF#32) := by decide

theorem witness_StepRunsTheDecodedRequest :
    ∃ (s : State) (bytes : List Byte) (rest : List HostMove) (i : Instr),
      s.busy = false ∧ s.host = .request bytes :: rest ∧ decode bytes = .ok i :=
  ⟨{ State.reset with host := [.request [0x03#8, 0xFF#8]] }, [0x03#8, 0xFF#8], [], .readR1, rfl, rfl, rfl⟩

theorem witness_UndecodableRequestIsRefused :
    ∃ (s : State) (bytes : List Byte) (rest : List HostMove) (e : DecodeError),
      s.busy = false ∧ s.host = .request bytes :: rest ∧ decode bytes = .error e :=
  ⟨{ State.reset with host := [.request [0x0B#8, 0x08#8, 0x00#8, 0x00#8]] }, _, [], .resultStatus, rfl, rfl, rfl⟩

theorem witness_PlacedWordRunsNext : decodeTableWord 24 0x07FFFF = some (.resultBusyTimeout 0xFFFF#16) := by decide

theorem witness_MoveWhileBusyIsNotAccepted : ∃ s : State, s.busy = true := ⟨running .rToken 2#3 [], rfl⟩

theorem witness_ConfigurationWrites : State.reset.busy = false := rfl

/-- While an operation runs, with a transport that never completes anything afterwards, and while none runs. -/
theorem witness_ResetAtAnyMoment :
    ∃ (s t : State) (line : Transport) (rest : List HostMove), s.host = .reset line :: rest ∧ s.busy = true ∧
      line.after = .hung ∧ t.host = .reset line :: rest ∧ t.busy = false :=
  ⟨{ running .rData 2#3 [] with host := [.reset { script := [], after := .hung, inits := some 0 }] },
    { State.reset with host := [.reset { script := [], after := .hung, inits := some 0 }] }, _, [], rfl, rfl, rfl, rfl, rfl⟩

theorem witness_SendCommandEmitsTheFrame :
    ∃ (s : State) (answers : List Byte), answers.length = 8 ∧ s.Supplies answers :=
  ⟨_, [1#8, 2#8, 3#8, 4#8, 5#8, 6#8, 7#8, 8#8], rfl, answering_supplies _⟩

theorem witness_FiveCommandsEmitTheirFrames :
    ∃ (s : State) (answers : List Byte), answers.length = 8 ∧ s.Supplies answers :=
  ⟨_, idleBytes 8, rfl, answering_supplies _⟩

theorem witness_ReadR1ReturnsTheFirstResponse :
    ∃ (s t u : State) (answers : List Byte), Polled [0x01#8] 0x01#8 ∧ s.Supplies [0x01#8] ∧
      Polled (idleBytes 7 ++ [0xFF#8]) 0xFF#8 ∧ t.Supplies (idleBytes 7 ++ [0xFF#8]) ∧
      Polled (idleBytes 7 ++ [0x00#8]) 0x00#8 ∧ u.Supplies (idleBytes 7 ++ [0x00#8]) ∧ answers.length = 8 :=
  ⟨_, _, _, idleBytes 8, polled_at_once _ (by decide), answering_supplies _, polled_at_last _, answering_supplies _,
    polled_at_last _, answering_supplies _, rfl⟩

theorem witness_ReadR2ComposesHighAndLow :
    ∃ (s : State) (answers : List Byte) (high low : Byte), Polled answers high ∧ s.Supplies (answers ++ [low]) :=
  ⟨_, _, 0x05#8, 0xFF#8, polled_at_last _, answering_supplies _⟩

theorem witness_MarkersAreOneExchange : ∃ (s : State) (i : Byte), s.Supplies [i] := ⟨_, 0x5A#8, answering_supplies _⟩

theorem witness_ClassifyR1IsWholeByteEquality :
    (∀ x ∈ r1Arms, (0x00#8 : Byte) ≠ x.2.1) ∧ (∀ x ∈ r1Arms, (0x80#8 : Byte) ≠ x.2.1) ∧
      ∀ x ∈ r1Arms, (0x03#8 : Byte) ≠ x.2.1 := by decide

theorem witness_ClassifyR2IsTableThenHighByte :
    ((∀ x ∈ r2Arms, (0x01#8 ++ 0x00#8 : Half) ≠ x.2.1) ∧ (0x01#8 : Byte) ≠ 0#8) ∧
      ((∀ x ∈ r2Arms, (0x00#8 ++ 0x03#8 : Half) ≠ x.2.1) ∧ (0x00#8 : Byte) = 0#8) := by decide

/-- Each result row has a place where it ends the operation. -/
theorem witness_ResultRowsEndTheOperation :
    (running .idle 4#3 []).canEnd (.ok 7#16) = true ∧ (running .rCrc 2#3 []).canEnd (.ok 0#16) = true ∧
      (running .iStatusLo 1#3 []).canEnd (.ok 0#16) = true ∧
      (running .iResetResp 1#3 []).canEnd (.err (.init .noResponse)) = true ∧
      (running .iResetResp 1#3 []).canEnd (.err (.init (.unexpectedResetResponse 0x00#8))) = true ∧
      (running .iOpCondResp 1#3 []).canEnd (.err (.init (.cardNotReady 0xFF#8))) = true ∧
      (running .iStatusLo 1#3 []).canEnd (.err (.init (.statusNotReady 0x0001#16))) = true ∧
      (running .rToken 2#3 []).canEnd (.err (.io (.protocolError 0x00#8))) = true ∧
      ({ running .wAck 3#3 [] with writeAckMode := .strict } : State).canEnd (.err (.io (.protocolError 0x04#8))) = true ∧
      (running .rToken 2#3 []).canEnd (.err (.io .framingError)) = true ∧
      ({ running .wBusy 3#3 [] with busyBound := some 1 } : State).canEnd (.err (.io .busyTimeout)) = true := by decide

/-- A row that ends the operation in progress, and the same row with none in progress. -/
theorem witness_ResultWordReadsBack :
    ∃ (i : Instr) (s t s' : State), i.wellFormed = true ∧ i.selector = .result ∧ exec i s = .next t ∧ t.busy ≠ s.busy ∧
      s'.busy = false :=
  ⟨.resultUnexpectedResetResponse 0x00FE#16, running .iResetResp 1#3 [], _, State.reset, rfl, rfl, rfl, by decide, rfl⟩

theorem witness_RequestsStartTheirOperation : State.reset.busy = false := rfl

theorem witness_ControlOperationsSucceedAtOnce : State.reset.busy = false := rfl

theorem witness_RequestWhileBusyHasNoEffect : (running .wBusy 3#3 []).busy = true := rfl

theorem witness_ReadSectorDeliversThePayload :
    ∃ (s : State) (frame polls payload : List Byte) (m : Nat) (c1 c2 : Byte),
      s.busy = false ∧ s.HostWaits ∧ Memory.wf s.buf = true ∧ frame.length = 8 ∧ Polled polls 0x00#8 ∧ m < 65535 ∧
      payload.length = 512 ∧ s.Supplies (frame ++ polls ++ (idleBytes m ++ [0xFE#8]) ++ payload ++ [c1, c2]) :=
  ⟨_, idleBytes 8, [0x00#8], List.replicate 512 0xA5#8, 65534, 0x12#8, 0x34#8, rfl, hostWaits_of_nil rfl, rfl, rfl,
    polled_at_once _ (by decide), by decide, List.length_replicate, answering_supplies _⟩

/-- The three clauses of the failure: a timeout (with a bad acknowledgment), a bad acknowledgment, a wrong token. -/
theorem witness_ReadSectorFailsBeforeAnyPayload :
    ∀ x ∈ [(0x04#8, idleBytes 65534, 0xFF#8), (0x05#8, [], 0x09#8), (0x00#8, [], 0x00#8)],
      ∃ (s : State) (frame : List Byte), s.busy = false ∧ s.HostWaits ∧ frame.length = 8 ∧
        Polled [x.1] x.1 ∧ TokenPolled (x.2.1 ++ [x.2.2]) x.2.2 ∧ ¬(x.1 = 0x00#8 ∧ x.2.2 = 0xFE#8) ∧
        s.Supplies (frame ++ [x.1] ++ (x.2.1 ++ [x.2.2])) := by
  intro x hx
  simp only [List.mem_cons, List.not_mem_nil, or_false] at hx
  refine ⟨answering _, idleBytes 8, rfl, hostWaits_of_nil rfl, rfl, ?_, ?_, ?_, answering_supplies _⟩ <;>
    rcases hx with rfl | rfl | rfl
  · exact polled_at_once _ (by decide)
  · exact polled_at_once _ (by decide)
  · exact polled_at_once _ (by decide)
  · exact ⟨65534, by decide, rfl, .inr rfl⟩
  · exact ⟨0, by decide, rfl, .inl (by decide)⟩
  · exact ⟨0, by decide, rfl, .inl (by decide)⟩
  · decide
  · decide
  · decide

theorem witness_ReadSectorTerminates :
    ∃ s : State, s.busy = false ∧ s.HostWaits ∧ s.xport.after ≠ .hung :=
  ⟨State.reset, rfl, hostWaits_of_nil rfl, by decide⟩

/-- `permissive` with a bad acknowledgment, and `strict` with a good one; a bound one above the polls made. -/
theorem witness_WriteSectorSendsTheBuffer :
    ∃ (s t : State) (frame ignored busy : List Byte), s.writeAckMode = .permissive ∧ t.writeAckMode = .strict ∧
      (∀ x ∈ [(s, 0x04#8), (t, 0x00#8)], x.1.busy = false ∧ x.1.HostWaits ∧ frame.length = 8 ∧
        Polled [x.2] x.2 ∧ (x.1.writeAckMode = .permissive ∨ x.2 = 0x00#8) ∧ ignored.length = 516 ∧
        (∀ b ∈ busy, b ≠ 0xFF#8) ∧ (∀ n, x.1.busyBound = some n → busy.length < n) ∧ x.1.busyBound = some 2 ∧
        x.1.Supplies (frame ++ [x.2] ++ ignored ++ (busy ++ [0xFF#8]))) := by
  refine ⟨{ answering (idleBytes 8 ++ [0x04#8] ++ idleBytes 516 ++ ([0x00#8] ++ [0xFF#8])) with busyBound := some 2 },
    { answering (idleBytes 8 ++ [0x00#8] ++ idleBytes 516 ++ ([0x00#8] ++ [0xFF#8])) with
      busyBound := some 2, writeAckMode := .strict }, idleBytes 8, idleBytes 516, [0x00#8], rfl, rfl, ?_⟩
  intro x hx
  simp only [List.mem_cons, List.not_mem_nil, or_false] at hx
  rcases hx with rfl | rfl
  · exact ⟨rfl, hostWaits_of_nil rfl, rfl, polled_at_once _ (by decide), .inl rfl, List.length_replicate, by decide,
      fun n h => by cases h; decide, rfl, State.Supplies.congr rfl rfl (answering_supplies _)⟩
  · exact ⟨rfl, hostWaits_of_nil rfl, rfl, polled_at_once _ (by decide), .inr rfl, List.length_replicate, by decide,
      fun n h => by cases h; decide, rfl, State.Supplies.congr rfl rfl (answering_supplies _)⟩

theorem witness_StrictWriteStopsAtABadAcknowledgment :
    ∃ (s : State) (frame polls : List Byte) (ack : Byte), s.busy = false ∧ s.HostWaits ∧ s.writeAckMode = .strict ∧
      frame.length = 8 ∧ Polled polls ack ∧ ack ≠ 0x00#8 ∧ s.Supplies (frame ++ polls) :=
  ⟨{ answering (idleBytes 8 ++ (idleBytes 7 ++ [0xFF#8])) with writeAckMode := .strict }, idleBytes 8, _, 0xFF#8, rfl,
    hostWaits_of_nil rfl, rfl, rfl, polled_at_last _, by decide,
    State.Supplies.congr rfl rfl (answering_supplies _)⟩

theorem witness_BoundedBusyPollTimesOut :
    ∃ (s : State) (frame polls ignored busy : List Byte) (ack : Byte), s.busy = false ∧ s.HostWaits ∧
      frame.length = 8 ∧ Polled polls ack ∧ (s.writeAckMode = .permissive ∨ ack = 0x00#8) ∧ ignored.length = 516 ∧
      (∀ b ∈ busy, b ≠ 0xFF#8) ∧ 0 < busy.length ∧ s.busyBound = some busy.length ∧
      s.Supplies (frame ++ polls ++ ignored ++ busy) :=
  ⟨{ answering (idleBytes 8 ++ [0x04#8] ++ idleBytes 516 ++ [0xFE#8]) with busyBound := some 1 }, idleBytes 8,
    [0x04#8], idleBytes 516, [0xFE#8], 0x04#8, rfl, hostWaits_of_nil rfl, rfl, polled_at_once _ (by decide),
    .inl rfl, List.length_replicate, by decide, by decide, rfl, State.Supplies.congr rfl rfl (answering_supplies _)⟩

theorem witness_UnboundedBusyPollNeverEnds :
    ∃ s : State, ∀ n : Nat, s.busy = true ∧ s.phase = .wBusy ∧ s.busyBound = none ∧ s.HostWaits ∧
      ∀ k, k < n → ∃ b, s.answerAt k = some b ∧ b ≠ 0xFF#8 :=
  ⟨{ running .wBusy 3#3 [] with xport := { script := [], after := .constant 0x00#8, inits := none } }, fun _ =>
    ⟨rfl, rfl, rfl, hostWaits_of_nil rfl, fun _ _ => ⟨0x00#8, by simp [State.answerAt], by decide⟩⟩⟩

theorem witness_BoundedWriteTerminates :
    ∃ (s : State) (bound : Nat), s.busy = false ∧ s.HostWaits ∧ s.xport.after ≠ .hung ∧ s.busyBound = some bound ∧
      0 < bound :=
  ⟨{ State.reset with busyBound := some 1 }, 1, rfl, hostWaits_of_nil rfl, by decide, rfl, by decide⟩

theorem witness_WriteThenReadRoundTrip :
    ∃ (s : State) (f1 p1 ignored busy : List Byte) (ack : Byte), Memory.wf s.buf = true ∧ s.busy = false ∧ s.HostWaits ∧
      f1.length = 8 ∧ Polled p1 ack ∧ (s.writeAckMode = .permissive ∨ ack = 0x00#8) ∧ ignored.length = 516 ∧
      (∀ b ∈ busy, b ≠ 0xFF#8) ∧ (∀ n, s.busyBound = some n → busy.length < n) ∧
      s.Supplies (f1 ++ p1 ++ ignored ++ (busy ++ [0xFF#8])) ∧
      ∀ t : State, ∃ (r : State) (f2 p2 payload : List Byte) (m : Nat) (c1 c2 : Byte), Memory.wf r.buf = true ∧
        r.busy = false ∧ r.HostWaits ∧ f2.length = 8 ∧ Polled p2 0x00#8 ∧ m < 65535 ∧
        payload = ((newOuts s.trace t.trace).drop (8 + p1.length + 1)).take 512 ∧
        r.Supplies (f2 ++ p2 ++ (idleBytes m ++ [0xFE#8]) ++ payload ++ [c1, c2]) :=
  ⟨{ answering (idleBytes 8 ++ [0x00#8] ++ idleBytes 516 ++ ([] ++ [0xFF#8])) with buf := [(7, 0x31#8)] }, idleBytes 8,
    [0x00#8], idleBytes 516, [], 0x00#8, rfl, rfl, hostWaits_of_nil rfl, rfl, polled_at_once _ (by decide), .inl rfl,
    List.length_replicate, by decide, fun n h => (by cases h), State.Supplies.congr rfl rfl (answering_supplies _),
    fun _ => ⟨_, idleBytes 8, [0x00#8], _, 0, 0x12#8, 0x34#8, rfl, rfl, hostWaits_of_nil rfl, rfl,
      polled_at_once _ (by decide), by decide, rfl, answering_supplies _⟩⟩

/-- The payload after the last permitted poll, a failed acceptance test after the last permitted poll, and a state elsewhere. -/
theorem witness_RdblockDeliversThePayload :
    ∃ (s : State) (payload : List Byte) (m : Nat) (c1 c2 : Byte) (s' : State) (tokens : List Byte) (s'' : State),
      (s.busy = true ∧ s.phase = .rToken ∧ s.cnt = 0 ∧ s.ack = 0x00#8 ∧ Memory.wf s.buf = true ∧ m < 65535 ∧
        payload.length = 512 ∧ s.Supplies ((idleBytes m ++ [0xFE#8]) ++ payload ++ [c1, c2])) ∧
      (s'.busy = true ∧ s'.phase = .rToken ∧ s'.cnt = 0 ∧ TokenPolled tokens 0xFF#8 ∧
        ¬(s'.ack = 0x00#8 ∧ (0xFF#8 : Byte) = 0xFE#8) ∧ s'.Supplies tokens) ∧
      ¬(s''.busy = true ∧ s''.phase = .rToken) :=
  ⟨running .rToken 2#3 _, List.replicate 512 0xA5#8, 65534, 0x12#8, 0x34#8, running .rToken 2#3 _, idleBytes 65534 ++ [0xFF#8],
    State.reset,
    ⟨rfl, rfl, rfl, rfl, rfl, by decide, List.length_replicate, State.Supplies.congr rfl rfl (answering_supplies _)⟩,
    ⟨rfl, rfl, rfl, ⟨65534, by decide, rfl, .inr rfl⟩, by decide, State.Supplies.congr rfl rfl (answering_supplies _)⟩,
    by decide⟩

theorem witness_WrblockSendsTheBuffer :
    ∃ (s : State) (ignored busy : List Byte) (s' : State), (s.busy = true ∧ s.phase = .wToken ∧ s.HostWaits ∧
      ignored.length = 516 ∧ (∀ b ∈ busy, b ≠ 0xFF#8) ∧ (∀ n, s.busyBound = some n → busy.length < n) ∧
      s.Supplies (ignored ++ (busy ++ [0xFF#8]))) ∧ ¬(s'.busy = true ∧ s'.phase = .wToken) :=
  ⟨running .wToken 3#3 _, idleBytes 516, [0x00#8, 0xFE#8], State.reset,
    ⟨rfl, rfl, hostWaits_of_nil rfl, List.length_replicate, by decide, fun n h => (by cases h),
      State.Supplies.congr rfl rfl (answering_supplies _)⟩, by decide⟩

/-- The longest successful run, as in I13, and the shortest, as in I1. -/
theorem witness_InitializeReachesReady :
    ∀ x ∈ [([], []), (List.replicate 511 Attempt.silent, List.replicate 31999 Attempt.silent)],
      ∃ (s : State) (a b : Attempt) (frame polls : List Byte), s.busy = false ∧ s.HostWaits ∧ s.xport.inits ≠ some 0 ∧ x.1.length < 512 ∧
        (∀ y ∈ x.1, y.Valid ∧ y.response ≠ 0x01#8) ∧ a.Valid ∧ a.response = 0x01#8 ∧ x.2.length < 32000 ∧
        (∀ y ∈ x.2, y.Valid ∧ y.response ≠ 0x00#8) ∧ b.Valid ∧ b.response = 0x00#8 ∧ frame.length = 8 ∧
        Polled polls 0x00#8 ∧ s.Supplies (attemptAnswers (x.1 ++ [a]) ++ attemptAnswers (x.2 ++ [b])
          ++ (frame ++ polls ++ [0x00#8])) := by
  intro x hx
  refine ⟨answering _, attemptOf 0x01#8, attemptOf 0x00#8, idleBytes 8, _, rfl, hostWaits_of_nil rfl,
    answering_inits _, ?_, ?_,
    attemptOf_valid _ (by decide), rfl, ?_, ?_, attemptOf_valid _ (by decide), rfl, rfl, polled_at_last _,
    answering_supplies _⟩
  all_goals
    simp only [List.mem_cons, List.not_mem_nil, or_false] at hx
    rcases hx with rfl | rfl
  · exact Nat.zero_lt_succ _
  · simp only [List.length_replicate]; omega
  · exact fun _ h => absurd h List.not_mem_nil
  · exact fun y hy => by rw [List.eq_of_mem_replicate hy]; exact ⟨silent_valid, by decide⟩
  · exact Nat.zero_lt_succ _
  · simp only [List.length_replicate]; omega
  · exact fun _ h => absurd h List.not_mem_nil
  · exact fun y hy => by rw [List.eq_of_mem_replicate hy]; exact ⟨silent_valid, by decide⟩

/-- The last response `0xFF`, `0x00` and another. -/
theorem witness_ResetStageFailsAfter512Attempts :
    ∀ a ∈ [Attempt.silent, attemptOf 0x00#8, attemptOf 0x04#8],
      ∃ (s : State) (as : List Attempt), s.busy = false ∧ s.HostWaits ∧ s.xport.inits ≠ some 0 ∧ as.length = 511 ∧
        (∀ y ∈ as ++ [a], y.Valid ∧ y.response ≠ 0x01#8) ∧ s.Supplies (attemptAnswers (as ++ [a])) := by
  intro a ha
  refine ⟨answering _, List.replicate 511 Attempt.silent, rfl, hostWaits_of_nil rfl, answering_inits _, List.length_replicate, ?_,
    answering_supplies _⟩
  intro y hy
  rcases List.mem_append.mp hy with hy | hy
  · rw [List.eq_of_mem_replicate hy]; exact ⟨silent_valid, by decide⟩
  · simp only [List.mem_cons, List.not_mem_nil, or_false] at hy ha
    subst hy
    rcases ha with rfl | rfl | rfl
    · exact ⟨silent_valid, by decide⟩
    · exact ⟨attemptOf_valid _ (by decide), by decide⟩
    · exact ⟨attemptOf_valid _ (by decide), by decide⟩

theorem witness_OpCondStageFailsAfter32000Attempts :
    ∃ (s : State) (as bs : List Attempt) (a b : Attempt), s.busy = false ∧ s.HostWaits ∧ s.xport.inits ≠ some 0 ∧ as.length < 512 ∧
      (∀ y ∈ as, y.Valid ∧ y.response ≠ 0x01#8) ∧ a.Valid ∧ a.response = 0x01#8 ∧ bs.length = 31999 ∧
      (∀ y ∈ bs ++ [b], y.Valid ∧ y.response ≠ 0x00#8) ∧
      s.Supplies (attemptAnswers (as ++ [a]) ++ attemptAnswers (bs ++ [b])) := by
  refine ⟨answering _, [], List.replicate 31999 (attemptOf 0x01#8), attemptOf 0x01#8, attemptOf 0x01#8, rfl,
    hostWaits_of_nil rfl, answering_inits _, by decide, by simp, attemptOf_valid _ (by decide), rfl, List.length_replicate, ?_,
    answering_supplies _⟩
  intro y hy
  have : y = attemptOf 0x01#8 := by
    rcases List.mem_append.mp hy with hy | hy
    · exact List.eq_of_mem_replicate hy
    · simpa using hy
  rw [this]
  exact ⟨attemptOf_valid _ (by decide), by decide⟩

theorem witness_StatusCheckFailsOnAnyOtherWord :
    ∃ (s : State) (frame polls : List Byte) (high low : Byte), s.busy = true ∧ s.HostWaits ∧ s.phase = .iStatusCmd ∧
      s.byte = 0#10 ∧ s.FrameFits ∧ frame.length = 8 ∧ Polled polls high ∧ high ++ low ≠ 0x0000#16 ∧
      s.Supplies (frame ++ polls ++ [low]) :=
  ⟨{ running .iStatusCmd 1#3 (idleBytes 8 ++ [0x00#8] ++ [0x01#8]) with idxCmd := 13#6 }, idleBytes 8, [0x00#8],
    0x00#8, 0x01#8, rfl, hostWaits_of_nil rfl, rfl, rfl, ⟨rfl, rfl, rfl⟩, rfl, polled_at_once _ (by decide),
    by decide, State.Supplies.congr rfl rfl (answering_supplies _)⟩

theorem witness_SilentCardGivesNoResponse :
    ∃ s : State, s.busy = false ∧ s.HostWaits ∧ s.xport.inits ≠ some 0 ∧ ∀ k, k < 8192 → s.answerAt k = some 0xFF#8 :=
  ⟨answering [], rfl, hostWaits_of_nil rfl, by decide, fun _ _ => by simp [State.answerAt, answering]⟩

theorem witness_InitializeTerminates : ∃ s : State, s.busy = false ∧ s.HostWaits ∧ s.Completes :=
  ⟨State.reset, rfl, hostWaits_of_nil rfl, by decide, rfl⟩

/-- A step at the last permitted attempt, and one at the last payload byte. -/
theorem witness_StepKeepsTheInvariant :
    ∃ s t s' t' : State, s.Inv ∧ step s = .next t ∧ t.busy = false ∧ s'.Inv ∧ step s' = .next t' ∧ t'.busy = true :=
  ⟨_, _, _, _, inv_of_last_poll 31999 rfl 0x01#8, rfl, rfl, inv_of_last_payload_byte, rfl, rfl⟩

/-- An exchange and an `XportInit` that never complete. -/
theorem witness_OnlyAHungTransportFaults :
    ∃ (s s' : State) (f f' : Fault), s.Inv ∧ step s = .fault f ∧ s'.Inv ∧ step s' = .fault f' ∧ s'.phase = .iXportInit :=
  ⟨_, _, _, _, inv_of_hung_busy_poll, rfl, inv_of_hung_init, rfl, rfl⟩

theorem witness_UncompletedTransactionStopsTheOperation :
    ∃ s s' : State, s.Inv ∧ s.busy = true ∧ s.HostWaits ∧ s.phase ≠ .iXportInit ∧ s.answerAt 0 = none ∧ s'.Inv ∧
      s'.busy = true ∧ s'.HostWaits ∧ s'.phase = .iXportInit ∧ s'.xport.inits = some 0 :=
  ⟨_, _, inv_of_hung_busy_poll, rfl, hostWaits_of_nil rfl, by decide, rfl, inv_of_hung_init, rfl, hostWaits_of_nil rfl, rfl,
    rfl⟩

theorem witness_RunningOperationIsNeverStuck :
    ∃ s : State, s.Inv ∧ s.busy = true ∧ s.Completes ∧ ∀ index value rest, s.host ≠ .storeBuffer index value :: rest :=
  ⟨_, inv_of_read_token, rfl, ⟨by decide, rfl⟩, by simp [running, answering, State.reset]⟩

/-- A step that fails the stage, one that ends it, and an instruction presented on its own. -/
theorem witness_InitStateFollowsItsTransitions :
    ∃ s t s' t' r v : State, s.Inv ∧ step s = .next t ∧ t.initState = .failed (.cardNotReady 0xFE#8) ∧ s'.Inv ∧
      step s' = .next t' ∧ t'.initState = .statusCheck ∧ r.Inv ∧ exec (.initializeCard 0#32) r = .next v :=
  ⟨_, _, _, _, _, _, inv_of_last_poll 31999 rfl 0xFE#8, rfl, rfl, inv_of_last_poll 31999 rfl 0x00#8, rfl, rfl, inv_of_reset,
    rfl⟩

theorem witness_SectorOperationsLeaveInitState :
    ∃ s t s' t' : State, s.phase.opCode = some 2#3 ∧ sequence s = .next t ∧ s'.phase.opCode = some 3#3 ∧
      sequence s' = .next t' :=
  ⟨running .rAck 2#3 [], _, running .wResp 3#3 [], _, rfl, rfl, rfl, rfl⟩

theorem witness_OneTransactionPerStep :
    ∃ s t s' t' : State, s.phase ≠ .idle ∧ sequence s = .next t ∧ s.phase = .iXportInit ∧ s'.phase ≠ .idle ∧
      sequence s' = .next t' ∧ s'.phase ≠ .iXportInit :=
  ⟨running .iXportInit 1#3 [], _, running .wCrc 3#3 [], _, by decide, rfl, rfl, by decide, rfl, by decide⟩

theorem witness_OnlyReceivedPayloadIsStored :
    ∃ s t s' t' : State, Memory.wf s.buf = true ∧ sequence s = .next t ∧ s.phase ≠ .rData ∧
      Memory.wf s'.buf = true ∧ sequence s' = .next t' ∧ s'.phase = .rData ∧ s'.byte = 511#10 :=
  ⟨running .rCrc 2#3 [], _, { running .rData 2#3 [0x5A#8] with byte := 511#10 }, _, rfl, rfl, by decide, rfl, rfl, rfl,
    rfl⟩

theorem witness_ResultIsWrittenAtTheEndOnly :
    ∃ s t s' t' : State, s.busy = true ∧ s.phase ≠ .idle ∧ sequence s = .next t ∧ t.busy = true ∧ s'.busy = true ∧
      s'.phase ≠ .idle ∧ sequence s' = .next t' ∧ t'.busy = false :=
  ⟨running .wBusy 3#3 [0x00#8], _, running .wBusy 3#3 [], _, rfl, by decide, rfl, rfl, rfl, by decide, rfl, rfl⟩

theorem witness_LatchedOperandsStay : ∃ s t : State, sequence s = .next t ∧ s.phase = .wAck :=
  ⟨running .wAck 3#3 [], _, rfl, rfl⟩

theorem witness_CommandPhaseSendsItsOwnFrame :
    ∃ (s t : State) (frame : List Byte), s.Inv ∧ s.phaseFrame = some frame ∧ sequence s = .next t :=
  ⟨_, _, _, inv_of_read_frame, rfl, rfl⟩

theorem witness_CanonicalBuffersWithEqualBytesAreEqual :
    ∃ m m' : Memory, Memory.wf m = true ∧ Memory.wf m' = true ∧ m ≠ [] ∧ ∀ a, Memory.read m a = Memory.read m' a :=
  ⟨[(511, 0x01#8)], [(511, 0x01#8)], by decide, by decide, by decide, fun _ => rfl⟩

end Sys2Proof.Machine
end

section
/-! The rows of RESULT (R100; log entry 13): each is `return Ok(v)` or one `raise F(info)` of the operation in progress, exactly
where that operation can end so. -/

namespace Sys2Proof.Machine

/-! ### The rows as the end of an operation -/

theorem exec_resultOk (info : Half) (s : State) : exec (.resultOk info) s = .next (s.endBy (.ok info)) := rfl

theorem exec_resultNoResponse (info : Half) (s : State) :
    exec (.resultNoResponse info) s = .next (s.endBy (.err (.init .noResponse))) := rfl

theorem exec_resultUnexpectedResetResponse (info : Half) (s : State) :
    exec (.resultUnexpectedResetResponse info) s
      = .next (s.endBy (.err (.init (.unexpectedResetResponse (info.extractLsb' 0 8))))) := rfl

theorem exec_resultCardNotReady (info : Half) (s : State) :
    exec (.resultCardNotReady info) s = .next (s.endBy (.err (.init (.cardNotReady (info.extractLsb' 0 8))))) := rfl

theorem exec_resultStatusNotReady (info : Half) (s : State) :
    exec (.resultStatusNotReady info) s = .next (s.endBy (.err (.init (.statusNotReady info)))) := rfl

theorem exec_resultProtocolError (info : Half) (s : State) :
    exec (.resultProtocolError info) s = .next (s.endBy (.err (.io (.protocolError (info.extractLsb' 0 8))))) := rfl

theorem exec_resultFramingError (info : Half) (s : State) :
    exec (.resultFramingError info) s = .next (s.endBy (.err (.io .framingError))) := rfl

theorem exec_resultBusyTimeout (info : Half) (s : State) :
    exec (.resultBusyTimeout info) s = .next (s.endBy (.err (.io .busyTimeout))) := rfl

/-! ### The state an operation ends in (R256) -/

theorem State.raise_init_eq_ended (s : State) (f : InitFailure) :
    s.raise (.init f) = { s.ended (.err (.init f)) with initState := .failed f } := rfl

theorem State.raise_io_eq_ended (s : State) (f : IoFailure) : s.raise (.io f) = s.ended (.err (.io f)) := rfl

/-! ### Where the operation in progress can end with a result (R176, R200, R220, R240) -/

theorem State.canEnd_ok_iff (s : State) (v : Half) :
    s.canEnd (.ok v) = true ↔ s.busy = true ∧ ((s.phase = .idle ∧ (s.op = 0#3 ∨ s.op = 4#3)) ∨
      (v = 0#16 ∧ (s.phase = .iStatusLo ∨ s.phase = .rCrc ∨ s.phase = .wBusy))) := by
  simp [State.canEnd]

theorem State.canEnd_noResponse_iff (s : State) :
    s.canEnd (.err (.init .noResponse)) = true ↔ s.busy = true ∧ s.phase = .iResetResp := by
  simp [State.canEnd]

theorem State.canEnd_unexpectedResetResponse_iff (s : State) (code : Byte) :
    s.canEnd (.err (.init (.unexpectedResetResponse code))) = true ↔
      s.busy = true ∧ s.phase = .iResetResp ∧ code ≠ 0x01#8 ∧ code ≠ 0xFF#8 := by
  simp [State.canEnd]

theorem State.canEnd_cardNotReady_iff (s : State) (code : Byte) :
    s.canEnd (.err (.init (.cardNotReady code))) = true ↔
      s.busy = true ∧ s.phase = .iOpCondResp ∧ code ≠ 0x00#8 := by
  simp [State.canEnd]

theorem State.canEnd_statusNotReady_iff (s : State) (code : Half) :
    s.canEnd (.err (.init (.statusNotReady code))) = true ↔
      s.busy = true ∧ s.phase = .iStatusLo ∧ code ≠ 0x0000#16 := by
  simp [State.canEnd]

theorem State.canEnd_protocolError_iff (s : State) (raw : Byte) :
    s.canEnd (.err (.io (.protocolError raw))) = true ↔ s.busy = true ∧ (s.phase = .rToken ∨
      (s.phase = .wAck ∧ s.writeAckMode = .strict ∧ raw ≠ 0x00#8)) := by
  simp [State.canEnd]

theorem State.canEnd_framingError_iff (s : State) :
    s.canEnd (.err (.io .framingError)) = true ↔ s.busy = true ∧ s.phase = .rToken := by
  simp [State.canEnd]

theorem State.canEnd_busyTimeout_iff (s : State) :
    s.canEnd (.err (.io .busyTimeout)) = true ↔ s.busy = true ∧ s.phase = .wBusy ∧ s.busyBound ≠ none := by
  simp [State.canEnd]

/-! ### What the end does -/

theorem State.endBy_err_of_canEnd_iff {s : State} {f : Failure} {P : Prop} [Decidable P]
    (h : s.canEnd (.err f) = true ↔ P) : s.endBy (.err f) = if P then s.raise f else s := by
  split
  · next hP => exact State.endBy_err (h.mpr hP)
  · next hP => exact State.endBy_of_not (Bool.eq_false_iff.mpr (mt h.mp hP))

theorem State.endBy_init_of_canEnd_iff {s : State} {f : InitFailure} {P : Prop} [Decidable P]
    (h : s.canEnd (.err (.init f)) = true ↔ P) :
    s.endBy (.err (.init f)) = if P then { s.ended (.err (.init f)) with initState := .failed f } else s := by
  rw [State.endBy_err_of_canEnd_iff h, State.raise_init_eq_ended]

theorem State.endBy_io_of_canEnd_iff {s : State} {f : IoFailure} {P : Prop} [Decidable P]
    (h : s.canEnd (.err (.io f)) = true ↔ P) :
    s.endBy (.err (.io f)) = if P then s.ended (.err (.io f)) else s := by
  rw [State.endBy_err_of_canEnd_iff h, State.raise_io_eq_ended]

/-- `return Ok(v)` outside INITIALIZE leaves `INIT_STATE` alone. -/
theorem State.endBy_ok_of_phase_ne {s : State} {v : Half} (h : s.canEnd (.ok v) = true) (hp : s.phase ≠ .iStatusLo) :
    s.endBy (.ok v) = s.ended (.ok v) := by
  rw [State.endBy_ok h, if_neg hp]
  rfl

/-- `return Ok(v)` at the end of INITIALIZE makes the card `Ready` (R186). -/
theorem State.endBy_ok_of_phase_eq {s : State} {v : Half} (h : s.canEnd (.ok v) = true) (hp : s.phase = .iStatusLo) :
    s.endBy (.ok v) = { s.ended (.ok v) with initState := .ready } := by
  rw [State.endBy_ok h, if_pos hp]
  rfl

/-- `return Ok(v)` by the operation that has it: a control operation, the last step of a sector operation, the last step of
INITIALIZE, and nowhere else. -/
theorem State.endBy_ok_eq (s : State) (v : Half) :
    s.endBy (.ok v) =
      if s.busy = true ∧ s.phase = .idle ∧ (s.op = 0#3 ∨ s.op = 4#3) then s.ended (.ok v)
      else if s.busy = true ∧ (s.phase = .rCrc ∨ s.phase = .wBusy) ∧ v = 0#16 then s.ended (.ok 0#16)
      else if s.busy = true ∧ s.phase = .iStatusLo ∧ v = 0#16 then { s.ended (.ok 0#16) with initState := .ready }
      else s := by
  split_ifs with hControl hSector hInit
  · obtain ⟨hb, hp, hop⟩ := hControl
    exact State.endBy_ok_of_phase_ne ((s.canEnd_ok_iff v).mpr ⟨hb, .inl ⟨hp, hop⟩⟩) (by simp [hp])
  · obtain ⟨hb, hp, rfl⟩ := hSector
    have hne : s.phase ≠ .iStatusLo := by rcases hp with hp | hp <;> simp [hp]
    exact State.endBy_ok_of_phase_ne ((s.canEnd_ok_iff _).mpr ⟨hb, .inr ⟨rfl, .inr hp⟩⟩) hne
  · obtain ⟨hb, hp, rfl⟩ := hInit
    exact State.endBy_ok_of_phase_eq ((s.canEnd_ok_iff _).mpr ⟨hb, .inr ⟨rfl, .inl hp⟩⟩) hp
  · refine State.endBy_of_not (Bool.eq_false_iff.mpr fun h => ?_)
    obtain ⟨hb, ⟨hp, hop⟩ | ⟨hv, hp | hp⟩⟩ := (s.canEnd_ok_iff v).mp h
    · exact hControl ⟨hb, hp, hop⟩
    · exact hInit ⟨hb, hp, hv⟩
    · exact hSector ⟨hb, hp, hv⟩

/-- Settles O22: each row is `endBy` with its result, which acts exactly where the operation in progress can end so. -/
theorem resultRowsEndTheOperation : Obligations.ResultRowsEndTheOperation := by
  intro s info
  rw [exec_resultOk, exec_resultNoResponse, exec_resultUnexpectedResetResponse, exec_resultCardNotReady,
    exec_resultStatusNotReady, exec_resultProtocolError, exec_resultFramingError, exec_resultBusyTimeout]
  exact ⟨congrArg _ (s.endBy_ok_eq info),
    congrArg _ (State.endBy_init_of_canEnd_iff s.canEnd_noResponse_iff),
    congrArg _ (State.endBy_init_of_canEnd_iff (s.canEnd_unexpectedResetResponse_iff _)),
    congrArg _ (State.endBy_init_of_canEnd_iff (s.canEnd_cardNotReady_iff _)),
    congrArg _ (State.endBy_init_of_canEnd_iff (s.canEnd_statusNotReady_iff info)),
    congrArg _ (State.endBy_io_of_canEnd_iff (s.canEnd_protocolError_iff _)),
    congrArg _ (State.endBy_io_of_canEnd_iff s.canEnd_framingError_iff),
    congrArg _ (State.endBy_io_of_canEnd_iff s.canEnd_busyTimeout_iff)⟩

end Sys2Proof.Machine
end

section
/-! One step of a running operation (R27; log entry 5): the byte its exchange sends, and what the phase does with the answer.
Every claim about the sequencer follows from these two and from what an exchange does. -/

namespace Sys2Proof.Machine

/-! ### What a phase sends, and what it does with the answer -/

/-- The byte the phase's exchange sends (R27). -/
def State.sends (s : State) : Byte :=
  match s.phase with
  | .iResetCmd | .iOpCondCmd | .iStatusCmd | .rCmd | .wCmd => s.frameByte s.byte.toNat
  | .wToken => Config.tokenStart
  | .wData => Memory.read s.buf s.byte.toNat
  | .rCrc | .wCrc => Config.crcFill
  | _ => Config.idleByte

/-- One more byte is counted, and after the `n`-th the phase goes on with `done`. -/
def countByte (n : BitVec 10) (done : State → State) (s : State) : State :=
  if s.byte + 1#10 = n then done { s with byte := s.byte + 1#10 } else { s with byte := s.byte + 1#10 }

/-- One more poll of READ_R1 is counted; with a response, or after the eighth, the phase goes on with `done` (R140). -/
def countPoll (r : Byte) (done : State → State) (s : State) : State :=
  if r ≠ Config.idleByte ∨ s.poll + 1#4 = 8#4 then done { s with poll := s.poll + 1#4, r1 := r }
  else { s with poll := s.poll + 1#4 }

/-- One token poll is counted, and the acceptance test made after the last one (R203, R204). -/
def countTokenPoll (i : Byte) (s : State) : State :=
  if i ≠ Config.idleByte ∨ s.cnt + 1 = Config.nToken then tokenDecision { s with tok := i, cnt := s.cnt + 1 }
  else { s with tok := i, cnt := s.cnt + 1 }

/-- One busy poll is counted: success, a timeout, or another poll (R227, R228). -/
def countBusyPoll (i : Byte) (s : State) : State :=
  if i = Config.idleByte then { s with cnt := s.cnt + 1 }.succeed 0#16
  else if s.busyBound = some (s.cnt + 1) then { s with cnt := s.cnt + 1 }.raise (.io .busyTimeout)
  else { s with cnt := s.cnt + 1 }

/-- The assignments between the answer to a phase's exchange and the next transaction. -/
def afterAnswer (p : Phase) (i : Byte) (s : State) : State :=
  match p with
  | .idle | .iXportInit => s
  | .iResetCmd => countByte 8#10 (·.enterPoll .iResetResp) s
  | .iResetResp => countPoll i (resetAttempt i) s
  | .iOpCondCmd => countByte 8#10 (·.enterPoll .iOpCondResp) s
  | .iOpCondResp => countPoll i (opCondAttempt i) s
  | .iStatusCmd => countByte 8#10 (·.enterPoll .iStatusHi) s
  | .iStatusHi => countPoll i (fun t => { t with phase := .iStatusLo }) s
  | .iStatusLo => statusCheck (composeR2 s.r1 i) { s with r2 := composeR2 s.r1 i }
  | .rCmd => countByte 8#10 (·.enterPoll .rAck) s
  | .rAck => countPoll i (fun t => { t with ack := i }.enterCount .rToken) s
  | .rToken => countTokenPoll i s
  | .rData => countByte 512#10 (·.enterBytes .rCrc) { s with buf := Memory.write s.buf s.byte.toNat i }
  | .rCrc => countByte 2#10 (·.succeed 0#16) s
  | .wCmd => countByte 8#10 (·.enterPoll .wAck) s
  | .wAck => countPoll i (ackDecision i) s
  | .wToken => s.enterBytes .wData
  | .wData => countByte 512#10 (·.enterBytes .wCrc) s
  | .wCrc => countByte 2#10 (fun t => { t with phase := .wResp }) s
  | .wResp => s.enterCount .wBusy
  | .wBusy => countBusyPoll i s

/-- The buffer has the byte that a payload phase is at (R51, R64). -/
def State.IndexFits (s : State) : Prop := s.phase = .rData ∨ s.phase = .wData → s.byte.toNat < 512

/-! ### The sequencer's step is that exchange -/

theorem frameStep_eq (s : State) (f : State → State) :
    frameStep s (fun t => .next (f t)) .next = xchg (s.frameByte s.byte.toNat) s fun _ t => .next (countByte 8#10 f t) := by
  simp only [frameStep, countByte, apply_ite]

theorem checksumStep_eq (s : State) (f : State → State) :
    checksumStep s (fun t => .next (f t)) .next = xchg Config.crcFill s fun _ t => .next (countByte 2#10 f t) := by
  simp only [checksumStep, countByte, apply_ite]

theorem pollStep_eq (s : State) (f : Byte → State → State) :
    pollStep s (fun r t => .next (f r t)) .next = xchg Config.idleByte s fun r t => .next (countPoll r (f r) t) := by
  simp only [pollStep, countPoll, apply_ite]

theorem stepReadData_eq {s : State} (h : s.byte.toNat < 512) :
    stepReadData s = xchg Config.idleByte s fun i t => .next (afterAnswer .rData i t) := by
  cases ha : s.answerAt 0 with
  | none => simp [stepReadData, xchg, ha]
  | some i => rw [stepReadData, xchg_of_answer ha, xchg_of_answer ha, memWrite_of_lt (by simpa using h)]; rfl

theorem stepWriteData_eq {s : State} (h : s.byte.toNat < 512) :
    stepWriteData s = xchg (Memory.read s.buf s.byte.toNat) s fun i t => .next (afterAnswer .wData i t) := by
  rw [stepWriteData, memRead_of_lt h]; rfl

/-- In every phase but `Idle` and that of `XportInit` the sequencer's step is one exchange (R27). -/
theorem sequence_eq_xchg {s : State} (hi : s.phase ≠ .idle) (hx : s.phase ≠ .iXportInit) (hb : s.IndexFits) :
    sequence s = xchg s.sends s fun i t => .next (afterAnswer s.phase i t) := by
  unfold State.IndexFits at hb
  unfold sequence State.sends
  cases hp : s.phase with
  | idle => exact absurd hp hi
  | iXportInit => exact absurd hp hx
  | iResetCmd | iOpCondCmd | iStatusCmd | rCmd | wCmd => exact frameStep_eq s _
  | iResetResp | iOpCondResp | iStatusHi | rAck | wAck => exact pollStep_eq s _
  | rCrc | wCrc => exact checksumStep_eq s _
  | rData => exact stepReadData_eq (hb (.inl hp))
  | wData => exact stepWriteData_eq (hb (.inr hp))
  | iStatusLo | rToken | wToken | wResp | wBusy => rfl

/-- A payload phase leads to a next state inside the buffer only. -/
theorem indexFits_of_next {s t : State} (h : sequence s = .next t) : s.IndexFits := by
  rintro (hp | hp) <;> simp only [sequence, hp] at h <;> by_contra hb
  · obtain ⟨i, -, hk⟩ := xchg_next h
    simp [memWrite, hb] at hk
  · simp [stepWriteData, memRead, hb] at h

/-- All that a step of a running operation can do on the way to a next state, outside the phase of `XportInit`. -/
theorem sequence_next {s t : State} (h : sequence s = .next t) (hi : s.phase ≠ .idle) (hx : s.phase ≠ .iXportInit) :
    ∃ i, s.answerAt 0 = some i ∧ t = afterAnswer s.phase i (s.consume.record (.xchg s.sends i)) := by
  rw [sequence_eq_xchg hi hx (indexFits_of_next h)] at h
  obtain ⟨i, ha, hk⟩ := xchg_next h
  exact ⟨i, ha, by injection hk with hk; exact hk.symm⟩

/-- All that the phase of `XportInit` can do on the way to a next state (R177). -/
theorem sequence_next_of_xportInit {s t : State} (h : sequence s = .next t) (hp : s.phase = .iXportInit) :
    t = { s.countInit.record .init with initState := .resetWait, cnt := 0 }.beginReset := by
  simp only [sequence, hp] at h
  obtain ⟨-, hk⟩ := xportInit_next h
  injection hk with hk
  exact hk.symm

end Sys2Proof.Machine
end

section
/-! What the block's own assignments between two transactions leave alone, and how they leave the operation in progress. -/

namespace Sys2Proof.Machine

/-! ### All that the decisions of the operations can do -/

/-- The end of one attempt of stage 1 (R178, R179, R180). -/
theorem resetAttempt_cases (r : Byte) (s : State) :
    (r = Config.r1InIdle ∧ resetAttempt r s = { s with initState := .opCondWait, cnt := 0 }.beginOpCond) ∨
      (r = Config.idleByte ∧ s.cnt + 1 = Config.nReset ∧
        resetAttempt r s = { s with cnt := s.cnt + 1 }.raise (.init .noResponse)) ∨
      (r ≠ Config.r1InIdle ∧ r ≠ Config.idleByte ∧ s.cnt + 1 = Config.nReset ∧
        resetAttempt r s = ({ s with cnt := s.cnt + 1 }.reportR1 r).raise (.init (.unexpectedResetResponse r))) ∨
      (r ≠ Config.r1InIdle ∧ s.cnt + 1 ≠ Config.nReset ∧ resetAttempt r s = { s with cnt := s.cnt + 1 }.beginReset) := by
  by_cases hr : r = Config.r1InIdle
  · exact .inl ⟨hr, if_pos hr⟩
  by_cases hc : s.cnt + 1 = Config.nReset
  · by_cases hi : r = Config.idleByte
    · exact .inr (.inl ⟨hi, hc, by simp only [resetAttempt, if_neg hr, if_pos hc, if_pos hi]⟩)
    · exact .inr (.inr (.inl ⟨hr, hi, hc, by simp only [resetAttempt, if_neg hr, if_pos hc, if_neg hi]⟩))
  · exact .inr (.inr (.inr ⟨hr, hc, by simp only [resetAttempt, if_neg hr, if_neg hc]⟩))

/-- The end of one attempt of stage 2 (R181, R182, R183). -/
theorem opCondAttempt_cases (r : Byte) (s : State) :
    (r = Config.r1Ready ∧
        opCondAttempt r s = { s with cnt := s.cnt + 1, initState := .statusCheck }.beginStatus) ∨
      (r ≠ Config.r1Ready ∧ s.cnt + 1 = Config.nOpCond ∧
        opCondAttempt r s = ({ s with cnt := s.cnt + 1 }.reportR1 r).raise (.init (.cardNotReady r))) ∨
      (r ≠ Config.r1Ready ∧ s.cnt + 1 ≠ Config.nOpCond ∧
        opCondAttempt r s = ({ s with cnt := s.cnt + 1 }.reportR1 r).beginOpCond) := by
  by_cases hr : r = Config.r1Ready
  · exact .inl ⟨hr, if_pos hr⟩
  by_cases hc : s.cnt + 1 = Config.nOpCond
  · exact .inr (.inl ⟨hr, hc, by simp only [opCondAttempt, if_neg hr, State.reportR1_cnt, if_pos hc]⟩)
  · exact .inr (.inr ⟨hr, hc, by simp only [opCondAttempt, if_neg hr, State.reportR1_cnt, if_neg hc]⟩)

/-- The status check (R184, R185). -/
theorem statusCheck_cases (w : Half) (s : State) :
    (w = 0x0000#16 ∧ statusCheck w s = { s with initState := .ready }.succeed 0#16) ∨
      (w ≠ 0x0000#16 ∧ statusCheck w s = (s.reportR2 w).raise (.init (.statusNotReady w))) := by
  unfold statusCheck
  split
  · next h => exact .inl ⟨h, rfl⟩
  · next h => exact .inr ⟨h, rfl⟩

/-- The acceptance test of a read: it passes, or the operation fails with one event (R205, R206). -/
theorem tokenDecision_cases (s : State) :
    (s.ack = Config.r1Ready ∧ s.tok = Config.tokenStart ∧ tokenDecision s = s.enterBytes .rData) ∨
      (¬ (s.ack = Config.r1Ready ∧ s.tok = Config.tokenStart) ∧
        ∃ b f, tokenDecision s = (s.reportR1 b).raise (.io f)) := by
  unfold tokenDecision
  split_ifs with hi ha ht
  · exact .inr ⟨fun h => absurd (hi.symm.trans h.2) (by decide), _, _, rfl⟩
  · exact .inr ⟨fun h => ha h.1, _, _, rfl⟩
  · exact .inr ⟨fun h => ht h.2, _, _, rfl⟩
  · exact .inl ⟨of_not_not ha, of_not_not ht, rfl⟩

/-- The acknowledgment of a write (R222, R223, R224). -/
theorem ackDecision_cases (r : Byte) (s : State) :
    (s.writeAckMode = .strict ∧ r ≠ Config.r1Ready ∧
        ackDecision r s = ({ s with ack := r }.reportR1 r).raise (.io (.protocolError r))) ∨
      (¬ (s.writeAckMode = .strict ∧ r ≠ Config.r1Ready) ∧
        ackDecision r s = { s with ack := r, phase := .wToken }) := by
  by_cases h : s.writeAckMode = .strict ∧ r ≠ Config.r1Ready
  · exact .inl ⟨h.1, h.2, if_pos h⟩
  · exact .inr ⟨h, if_neg h⟩

/-- The end of one token poll (R203, R204). -/
theorem countTokenPoll_cases (i : Byte) (s : State) :
    ((i ≠ Config.idleByte ∨ s.cnt + 1 = Config.nToken) ∧
        countTokenPoll i s = tokenDecision { s with tok := i, cnt := s.cnt + 1 }) ∨
      (i = Config.idleByte ∧ s.cnt + 1 ≠ Config.nToken ∧
        countTokenPoll i s = { s with tok := i, cnt := s.cnt + 1 }) := by
  by_cases h : i ≠ Config.idleByte ∨ s.cnt + 1 = Config.nToken
  · exact .inl ⟨h, if_pos h⟩
  · exact .inr ⟨by tauto, by tauto, if_neg h⟩

/-- The end of one busy poll (R227, R228). -/
theorem countBusyPoll_cases (i : Byte) (s : State) :
    (i = Config.idleByte ∧ countBusyPoll i s = { s with cnt := s.cnt + 1 }.succeed 0#16) ∨
      (i ≠ Config.idleByte ∧ s.busyBound = some (s.cnt + 1) ∧
        countBusyPoll i s = { s with cnt := s.cnt + 1 }.raise (.io .busyTimeout)) ∨
      (i ≠ Config.idleByte ∧ s.busyBound ≠ some (s.cnt + 1) ∧ countBusyPoll i s = { s with cnt := s.cnt + 1 }) := by
  unfold countBusyPoll
  split_ifs with hi hb
  · exact .inl ⟨hi, rfl⟩
  · exact .inr (.inl ⟨hi, hb, rfl⟩)
  · exact .inr (.inr ⟨hi, hb, rfl⟩)

/-- One byte counted: the loop has ended, or goes on. -/
theorem countByte_cases (n : BitVec 10) (done : State → State) (s : State) :
    (s.byte + 1#10 = n ∧ countByte n done s = done { s with byte := s.byte + 1#10 }) ∨
      (s.byte + 1#10 ≠ n ∧ countByte n done s = { s with byte := s.byte + 1#10 }) := by
  unfold countByte
  split
  · next h => exact .inl ⟨h, rfl⟩
  · next h => exact .inr ⟨h, rfl⟩

/-- One poll counted: READ_R1 has ended, or goes on (R140). -/
theorem countPoll_cases (r : Byte) (done : State → State) (s : State) :
    ((r ≠ Config.idleByte ∨ s.poll + 1#4 = 8#4) ∧
        countPoll r done s = done { s with poll := s.poll + 1#4, r1 := r }) ∨
      (r = Config.idleByte ∧ s.poll + 1#4 ≠ 8#4 ∧ countPoll r done s = { s with poll := s.poll + 1#4 }) := by
  unfold countPoll
  split
  · next h => exact .inl ⟨h, rfl⟩
  · next h => exact .inr ⟨by tauto, by tauto, rfl⟩

/-! ### What stays, and how the operation goes on (R24, R29, R30) -/

/-- What the assignments between two transactions leave alone once a received byte is stored, all else blanked: the operands,
the configuration, the trace, and the fields outside the block. -/
def State.surroundings (s : State) : State :=
  { State.reset with
    op := s.op, addr := s.addr, writeAckMode := s.writeAckMode, busyBound := s.busyBound, buf := s.buf, trace := s.trace
    sink := s.sink, xport := s.xport, draws := s.draws, returned := s.returned, host := s.host }

/-- Assignments of a running operation lead from `s` to `t`: the surroundings stay, and the operation goes on with `RESULT` as
it was or has ended with a result. -/
structure State.Proceeds (s t : State) : Prop where
  surroundings : t.surroundings = s.surroundings
  result : (t.busy = s.busy ∧ t.phase ≠ .idle ∧ t.result = s.result) ∨
    (t.busy = false ∧ t.phase = .idle ∧ t.result ≠ .none)

theorem enterPoll_proceeds {p : Phase} (hp : p ≠ .idle) (s : State) : s.Proceeds (s.enterPoll p) := ⟨rfl, .inl ⟨rfl, hp, rfl⟩⟩

theorem enterBytes_proceeds {p : Phase} (hp : p ≠ .idle) (s : State) : s.Proceeds (s.enterBytes p) := ⟨rfl, .inl ⟨rfl, hp, rfl⟩⟩

theorem enterCount_proceeds {p : Phase} (hp : p ≠ .idle) (s : State) : s.Proceeds (s.enterCount p) := ⟨rfl, .inl ⟨rfl, hp, rfl⟩⟩

theorem succeed_proceeds (v : Half) (s : State) : s.Proceeds (s.succeed v) := ⟨rfl, .inr ⟨rfl, rfl, by simp⟩⟩

theorem countByte_proceeds {n : BitVec 10} {done : State → State} {s : State} (hp : s.phase ≠ .idle)
    (hd : ∀ u : State, u.Proceeds (done u)) : s.Proceeds (countByte n done s) := by
  rcases countByte_cases n done s with ⟨-, h⟩ | ⟨-, h⟩ <;> rw [h]
  · exact ⟨(hd _).surroundings, (hd _).result⟩
  · exact ⟨rfl, .inl ⟨rfl, hp, rfl⟩⟩

theorem countPoll_proceeds {r : Byte} {done : State → State} {s : State} (hp : s.phase ≠ .idle)
    (hd : ∀ u : State, u.Proceeds (done u)) : s.Proceeds (countPoll r done s) := by
  rcases countPoll_cases r done s with ⟨-, h⟩ | ⟨-, -, h⟩ <;> rw [h]
  · exact ⟨(hd _).surroundings, (hd _).result⟩
  · exact ⟨rfl, .inl ⟨rfl, hp, rfl⟩⟩

theorem resetAttempt_proceeds (r : Byte) (s : State) : s.Proceeds (resetAttempt r s) := by
  rcases resetAttempt_cases r s with ⟨-, h⟩ | ⟨-, -, h⟩ | ⟨-, -, -, h⟩ | ⟨-, -, h⟩ <;> rw [h] <;> constructor <;>
    simp [State.surroundings, State.beginReset, State.beginOpCond]

theorem opCondAttempt_proceeds (r : Byte) (s : State) : s.Proceeds (opCondAttempt r s) := by
  rcases opCondAttempt_cases r s with ⟨-, h⟩ | ⟨-, -, h⟩ | ⟨-, -, h⟩ <;> rw [h] <;> constructor <;>
    simp [State.surroundings, State.beginOpCond, State.beginStatus]

theorem statusCheck_proceeds (w : Half) (s : State) : s.Proceeds (statusCheck w s) := by
  rcases statusCheck_cases w s with ⟨-, h⟩ | ⟨-, h⟩ <;> rw [h] <;> constructor <;> simp [State.surroundings]

theorem tokenDecision_proceeds (s : State) : s.Proceeds (tokenDecision s) := by
  rcases tokenDecision_cases s with ⟨-, -, h⟩ | ⟨-, b, f, h⟩ <;> rw [h] <;> constructor <;> simp [State.surroundings]

theorem ackDecision_proceeds (r : Byte) (s : State) : s.Proceeds (ackDecision r s) := by
  rcases ackDecision_cases r s with ⟨-, -, h⟩ | ⟨-, h⟩ <;> rw [h] <;> constructor <;> simp [State.surroundings]

theorem countTokenPoll_proceeds (i : Byte) {s : State} (hp : s.phase ≠ .idle) : s.Proceeds (countTokenPoll i s) := by
  rcases countTokenPoll_cases i s with ⟨-, h⟩ | ⟨-, -, h⟩ <;> rw [h]
  · exact ⟨(tokenDecision_proceeds _).surroundings, (tokenDecision_proceeds _).result⟩
  · exact ⟨rfl, .inl ⟨rfl, hp, rfl⟩⟩

theorem countBusyPoll_proceeds (i : Byte) {s : State} (hp : s.phase ≠ .idle) : s.Proceeds (countBusyPoll i s) := by
  rcases countBusyPoll_cases i s with ⟨-, h⟩ | ⟨-, -, h⟩ | ⟨-, -, h⟩ <;> rw [h] <;> constructor <;>
    simp [State.surroundings, hp]

/-- The buffer with the answer of a phase's exchange: only `R_Data` stores it (R207). -/
def State.bufAfter (s : State) (i : Byte) : Memory :=
  if s.phase = .rData then Memory.write s.buf s.byte.toNat i else s.buf

theorem afterAnswer_proceeds (i : Byte) {s : State} (hp : s.phase ≠ .idle) :
    { s with buf := s.bufAfter i }.Proceeds (afterAnswer s.phase i s) := by
  by_cases hd : s.phase = .rData
  · have hbuf : s.bufAfter i = Memory.write s.buf s.byte.toNat i := if_pos hd
    have hafter : afterAnswer s.phase i s = afterAnswer .rData i s := congrArg (afterAnswer · i s) hd
    rw [hbuf, hafter]
    exact countByte_proceeds (n := 512#10) (s := { s with buf := Memory.write s.buf s.byte.toNat i }) hp
      (enterBytes_proceeds (show Phase.rCrc ≠ .idle by decide))
  have hbuf : s.bufAfter i = s.buf := if_neg hd
  rw [hbuf]
  show s.Proceeds _
  cases h : s.phase with
  | idle => exact absurd h hp
  | iXportInit => exact ⟨rfl, .inl ⟨rfl, hp, rfl⟩⟩
  | iResetCmd | iOpCondCmd | iStatusCmd | rCmd | wCmd => exact countByte_proceeds hp (enterPoll_proceeds (by decide))
  | wData => exact countByte_proceeds hp (enterBytes_proceeds (by decide))
  | rData => exact absurd h hd
  | rCrc => exact countByte_proceeds hp (succeed_proceeds 0#16)
  | wCrc =>
    exact countByte_proceeds (done := fun u => { u with phase := .wResp }) hp
      fun u => ⟨rfl, .inl ⟨rfl, by simp, rfl⟩⟩
  | iStatusHi =>
    exact countPoll_proceeds (done := fun u => { u with phase := .iStatusLo }) hp
      fun u => ⟨rfl, .inl ⟨rfl, by simp, rfl⟩⟩
  | rAck =>
    exact countPoll_proceeds (done := fun u => { u with ack := i }.enterCount .rToken) hp
      fun u => ⟨rfl, .inl ⟨rfl, by simp, rfl⟩⟩
  | iResetResp => exact countPoll_proceeds hp (resetAttempt_proceeds i)
  | iOpCondResp => exact countPoll_proceeds hp (opCondAttempt_proceeds i)
  | wAck => exact countPoll_proceeds hp (ackDecision_proceeds i)
  | iStatusLo =>
    have hc := statusCheck_proceeds (composeR2 s.r1 i) { s with r2 := composeR2 s.r1 i }
    exact ⟨hc.surroundings, hc.result⟩
  | rToken => exact countTokenPoll_proceeds i hp
  | wToken => exact enterBytes_proceeds (by decide) s
  | wResp => exact enterCount_proceeds (by decide) s
  | wBusy => exact countBusyPoll_proceeds i hp

end Sys2Proof.Machine
end

section
/-! What every step of a running operation does: one transaction, the operands and the configuration as they were, `RESULT` at
the end only (R24, R27, R29, R33). -/

namespace Sys2Proof.Machine

theorem State.surroundings_eq_iff {s t : State} : t.surroundings = s.surroundings ↔
    t.op = s.op ∧ t.addr = s.addr ∧ t.writeAckMode = s.writeAckMode ∧ t.busyBound = s.busyBound ∧ t.buf = s.buf ∧
      t.trace = s.trace ∧ t.sink = s.sink ∧ t.xport = s.xport ∧ t.draws = s.draws ∧ t.returned = s.returned ∧
      t.host = s.host := by
  simp [State.surroundings]

/-- A step of a running operation is one transaction and then assignments. -/
theorem sequence_proceeds {s t : State} (h : sequence s = .next t) (hi : s.phase ≠ .idle) :
    (s.phase = .iXportInit ∧ (s.countInit.record .init).Proceeds t) ∨
      (s.phase ≠ .iXportInit ∧ ∃ i, s.answerAt 0 = some i ∧
        { s.consume.record (.xchg s.sends i) with buf := s.bufAfter i }.Proceeds t) := by
  by_cases hx : s.phase = .iXportInit
  · rw [sequence_next_of_xportInit h hx]
    exact .inl ⟨hx, rfl, .inl ⟨rfl, by simp [State.beginReset], rfl⟩⟩
  · obtain ⟨i, ha, rfl⟩ := sequence_next h hi hx
    refine .inr ⟨hx, i, ha, ?_⟩
    have hp := afterAnswer_proceeds i (s := s.consume.record (.xchg s.sends i)) (by simpa using hi)
    simpa [State.bufAfter] using hp

/-- Settles O53: the assignments after the transaction leave the trace, the transport and the free draws alone. -/
theorem oneTransactionPerStep : Obligations.OneTransactionPerStep := by
  intro s t hi h
  obtain ⟨hx, hp⟩ | ⟨hx, i, ha, hp⟩ := sequence_proceeds h hi <;>
    obtain ⟨-, -, -, -, -, htrace, -, hxport, hdraws, -, -⟩ := State.surroundings_eq_iff.mp hp.surroundings
  · exact .inl ⟨hx, htrace, hxport, hdraws⟩
  · exact .inr ⟨hx, s.sends, i, ha, by simpa using htrace, hxport, hdraws⟩

/-- Settles O55: the transaction touches none of BUSY, PHASE and RESULT, and the assignments after it write them together. -/
theorem resultIsWrittenAtTheEndOnly : Obligations.ResultIsWrittenAtTheEndOnly := by
  intro s t hb hi h
  obtain ⟨-, hp⟩ | ⟨-, i, -, hp⟩ := sequence_proceeds h hi <;> simpa [hb] using hp.result

/-- Settles O56: neither the transaction nor the assignments after it write one of these. -/
theorem latchedOperandsStay : Obligations.LatchedOperandsStay := by
  intro s t h
  by_cases hi : s.phase = .idle
  · simp only [sequence, hi] at h
    cases h
    simp
  · obtain ⟨-, hp⟩ | ⟨-, i, -, hp⟩ := sequence_proceeds h hi <;>
      obtain ⟨hop, haddr, hmode, hbound, -, -, hsink, -, -, hreturned, hhost⟩ :=
        State.surroundings_eq_iff.mp hp.surroundings <;>
      simp [hop, haddr, hmode, hbound, hsink, hreturned, hhost]

/-! ### The frame of a command phase (R85, R120) -/

/-- In a phase that sends a frame the sequencer's step sends byte `BYTE` of it and counts. -/
theorem sequence_eq_frameStep {s : State} {frame : List Byte} (h : s.phaseFrame = some frame) :
    ∃ p, p ≠ s.phase ∧ sequence s = frameStep s (fun t => .next (t.enterPoll p)) .next := by
  cases hp : s.phase with
  | iResetCmd => exact ⟨.iResetResp, by decide, by simp only [sequence, hp]; rfl⟩
  | iOpCondCmd => exact ⟨.iOpCondResp, by decide, by simp only [sequence, hp]; rfl⟩
  | iStatusCmd => exact ⟨.iStatusHi, by decide, by simp only [sequence, hp]; rfl⟩
  | rCmd => exact ⟨.rAck, by decide, by simp only [sequence, hp]; rfl⟩
  | wCmd => exact ⟨.wAck, by decide, by simp only [sequence, hp]; rfl⟩
  | _ => simp [State.phaseFrame, hp] at h

/-- In a phase that sends a frame the latches hold it, and `BYTE` selects a byte of it. -/
theorem State.Inv.frame_eq {s : State} {frame : List Byte} (hs : s.Inv) (h : s.phaseFrame = some frame) :
    frame = frameBytes s.idxCmd s.argHi s.argLo ∧ s.byte.toNat < 8 := by
  have hf := hs.frameFits
  have hc := hs.countersFit
  unfold State.FrameFits at hf
  unfold State.CountersFit at hc
  unfold State.phaseFrame at h
  split at h <;> simp_all

theorem byte_add_one_eq_eight_iff (b : BitVec 10) : b + 1#10 = 8#10 ↔ b = 7#10 := by
  bv_omega

/-- Settles O57: the latches hold the phase's frame, and the step sends the byte of it that BYTE selects. -/
theorem commandPhaseSendsItsOwnFrame : Obligations.CommandPhaseSendsItsOwnFrame := by
  intro s t frame hs hf h
  obtain ⟨rfl, hb⟩ := hs.frame_eq hf
  obtain ⟨p, hp, hstep⟩ := sequence_eq_frameStep hf
  obtain ⟨i, u, -, rfl, hdone⟩ := frameStep_next (hstep ▸ h)
  have hbyte : (frameBytes s.idxCmd s.argHi s.argLo)[s.byte.toNat]? = some (s.frameByte s.byte.toNat) := by
    rw [State.frameByte_eq s _ hb]
    exact List.getElem?_eq_getElem _
  obtain ⟨h7, hnext⟩ | ⟨h7, hnext⟩ := hdone <;> cases hnext
  · exact ⟨⟨_, i, hbyte, rfl, by simp⟩, .inr ⟨by simpa using hp, (byte_add_one_eq_eight_iff _).mp h7⟩⟩
  · exact ⟨⟨_, i, hbyte, rfl, by simp⟩, .inl ⟨by simp, rfl, by simp, mt (byte_add_one_eq_eight_iff _).mpr h7⟩⟩

end Sys2Proof.Machine
end

section
/-! The invariant read phase by phase, and the step of a running operation that keeps it. -/

namespace Sys2Proof.Machine

/-! ### The invariant, phase by phase -/

/-- A state in which `INIT_STATE` may rest outside INITIALIZE (R187). -/
def InitState.Rests (x : InitState) : Prop := x ≠ .resetWait ∧ x ≠ .opCondWait ∧ x ≠ .statusCheck

/-- The frame latches hold a command. -/
def State.Latches (s : State) (index : BitVec 6) (hi lo : Half) : Prop := s.idxCmd = index ∧ s.argHi = hi ∧ s.argLo = lo

/-- What the invariant says of the operands, the counters and `INIT_STATE` in each phase (R24, R27, R187, R205, R268). -/
def State.PhaseFits (s : State) : Prop :=
  match s.phase with
  | .idle => s.initState.Rests
  | .iXportInit => s.op = 1#3 ∧ s.initState = .powerOn
  | .iResetCmd =>
    s.op = 1#3 ∧ s.Latches Config.idxGoIdle 0#16 0#16 ∧ s.byte.toNat < 8 ∧ s.cnt < Config.nReset ∧ s.initState = .resetWait
  | .iResetResp => s.op = 1#3 ∧ s.poll.toNat < 8 ∧ s.cnt < Config.nReset ∧ s.initState = .resetWait
  | .iOpCondCmd =>
    s.op = 1#3 ∧ s.Latches Config.idxOpCond 0#16 0#16 ∧ s.byte.toNat < 8 ∧ s.cnt < Config.nOpCond ∧
      s.initState = .opCondWait
  | .iOpCondResp => s.op = 1#3 ∧ s.poll.toNat < 8 ∧ s.cnt < Config.nOpCond ∧ s.initState = .opCondWait
  | .iStatusCmd =>
    s.op = 1#3 ∧ s.Latches Config.idxStatus 0#16 0#16 ∧ s.byte.toNat < 8 ∧ s.initState = .statusCheck
  | .iStatusHi => s.op = 1#3 ∧ s.poll.toNat < 8 ∧ s.initState = .statusCheck
  | .iStatusLo => s.op = 1#3 ∧ s.initState = .statusCheck
  | .rCmd =>
    s.op = 2#3 ∧ s.Latches Config.idxRead (offsetHi s.addr) (offsetLo s.addr) ∧ s.byte.toNat < 8 ∧ s.initState.Rests
  | .rAck => s.op = 2#3 ∧ s.poll.toNat < 8 ∧ s.initState.Rests
  | .rToken => s.op = 2#3 ∧ s.cnt < Config.nToken ∧ s.initState.Rests
  | .rData =>
    s.op = 2#3 ∧ s.byte.toNat < 512 ∧ s.initState.Rests ∧ s.ack = Config.r1Ready ∧ s.tok = Config.tokenStart
  | .rCrc => s.op = 2#3 ∧ s.byte.toNat < 2 ∧ s.initState.Rests ∧ s.ack = Config.r1Ready ∧ s.tok = Config.tokenStart
  | .wCmd =>
    s.op = 3#3 ∧ s.Latches Config.idxWrite (offsetHi s.addr) (offsetLo s.addr) ∧ s.byte.toNat < 8 ∧ s.initState.Rests
  | .wAck => s.op = 3#3 ∧ s.poll.toNat < 8 ∧ s.initState.Rests
  | .wToken | .wResp => s.op = 3#3 ∧ s.initState.Rests
  | .wData => s.op = 3#3 ∧ s.byte.toNat < 512 ∧ s.initState.Rests
  | .wCrc => s.op = 3#3 ∧ s.byte.toNat < 2 ∧ s.initState.Rests
  | .wBusy => s.op = 3#3 ∧ (∀ n, s.busyBound = some n → s.cnt < n) ∧ s.initState.Rests

theorem State.phaseFits_iff (s : State) : s.PhaseFits ↔
    (∀ c, s.phase.opCode = some c → s.op = c) ∧ s.FrameFits ∧ s.CountersFit ∧ s.InitStateFits ∧ s.AcceptedFits := by
  unfold State.PhaseFits State.FrameFits State.CountersFit State.InitStateFits State.AcceptedFits InitState.Rests
    State.Latches
  cases s.phase <;> simp [Phase.opCode, Config.sectorSize, Config.nCrc] <;> tauto

theorem State.inv_iff (s : State) : s.Inv ↔
    Memory.wf s.buf = true ∧ (s.busy = true ↔ s.phase ≠ .idle) ∧ s.busyBound ≠ some 0 ∧ s.PhaseFits := by
  rw [s.phaseFits_iff]
  constructor
  · rintro ⟨hbuf, hbusy, hbound, hop, hframe, hcount, hinit, haccept⟩
    exact ⟨hbuf, hbusy, hbound, hop, hframe, hcount, hinit, haccept⟩
  · rintro ⟨hbuf, hbusy, hbound, hop, hframe, hcount, hinit, haccept⟩
    exact ⟨hbuf, hbusy, hbound, hop, hframe, hcount, hinit, haccept⟩

/-- A state with no operation in progress needs `INIT_STATE` at rest. -/
theorem State.phaseFits_of_idle {s : State} (hp : s.phase = .idle) : s.PhaseFits ↔ s.initState.Rests := by
  simp [State.PhaseFits, hp]

/-! ### The decisions keep it -/

/-- A counter below its ceiling that does not reach it stays below it. -/
theorem toNat_add_one_lt {w : Nat} {b n : BitVec w} (h : b.toNat < n.toNat) (hne : b + 1#w ≠ n) :
    (b + 1#w).toNat < n.toNat := by
  have := n.isLt
  have hs : (b + 1#w).toNat = b.toNat + 1 := by
    rw [BitVec.toNat_add, BitVec.toNat_ofNat, Nat.add_mod_mod, Nat.mod_eq_of_lt (by omega)]
  have : b.toNat + 1 ≠ n.toNat := fun e => hne (BitVec.eq_of_toNat_eq (hs.trans e))
  omega

theorem resetAttempt_phaseFits (r : Byte) {s : State} (hop : s.op = 1#3) (hc : s.cnt < Config.nReset)
    (hi : s.initState = .resetWait) : (resetAttempt r s).PhaseFits := by
  rcases resetAttempt_cases r s with ⟨-, h⟩ | ⟨-, -, h⟩ | ⟨-, -, -, h⟩ | ⟨-, hne, h⟩ <;> rw [h]
  · simp [State.PhaseFits, State.Latches, State.beginOpCond, hop]
  · simp [State.PhaseFits, InitState.Rests]
  · simp [State.PhaseFits, InitState.Rests]
  · simpa [State.PhaseFits, State.Latches, State.beginReset, hop, hi] using Nat.lt_of_le_of_ne hc hne

theorem opCondAttempt_phaseFits (r : Byte) {s : State} (hop : s.op = 1#3) (hc : s.cnt < Config.nOpCond)
    (hi : s.initState = .opCondWait) : (opCondAttempt r s).PhaseFits := by
  rcases opCondAttempt_cases r s with ⟨-, h⟩ | ⟨-, -, h⟩ | ⟨-, hne, h⟩ <;> rw [h]
  · simp [State.PhaseFits, State.Latches, State.beginStatus, hop]
  · simp [State.PhaseFits, InitState.Rests]
  · simpa [State.PhaseFits, State.Latches, State.beginOpCond, hop, hi] using Nat.lt_of_le_of_ne hc hne

theorem statusCheck_phaseFits (w : Half) (s : State) : (statusCheck w s).PhaseFits := by
  rcases statusCheck_cases w s with ⟨-, h⟩ | ⟨-, h⟩ <;> rw [h] <;> simp [State.PhaseFits, InitState.Rests]

theorem tokenDecision_phaseFits {s : State} (hop : s.op = 2#3) (hi : s.initState.Rests) :
    (tokenDecision s).PhaseFits := by
  rcases tokenDecision_cases s with ⟨ha, ht, h⟩ | ⟨-, b, f, h⟩ <;> rw [h]
  · simp [State.PhaseFits, hop, hi, ha, ht]
  · simp [State.PhaseFits, hi]

theorem ackDecision_phaseFits (r : Byte) {s : State} (hop : s.op = 3#3) (hi : s.initState.Rests) :
    (ackDecision r s).PhaseFits := by
  rcases ackDecision_cases r s with ⟨-, -, h⟩ | ⟨-, h⟩ <;> rw [h] <;> simp [State.PhaseFits, hop, hi]

theorem countTokenPoll_phaseFits (i : Byte) {s : State} (hp : s.phase = .rToken) (hs : s.PhaseFits) :
    (countTokenPoll i s).PhaseFits := by
  obtain ⟨hop, hc, hi⟩ : s.op = 2#3 ∧ s.cnt < Config.nToken ∧ s.initState.Rests := by
    simpa [State.PhaseFits, hp] using hs
  rcases countTokenPoll_cases i s with ⟨-, h⟩ | ⟨-, hne, h⟩ <;> rw [h]
  · exact tokenDecision_phaseFits hop hi
  · simpa [State.PhaseFits, hp, hop, hi] using Nat.lt_of_le_of_ne hc hne

theorem countBusyPoll_phaseFits (i : Byte) {s : State} (hp : s.phase = .wBusy) (hs : s.PhaseFits) :
    (countBusyPoll i s).PhaseFits := by
  obtain ⟨hop, hc, hi⟩ : s.op = 3#3 ∧ (∀ n, s.busyBound = some n → s.cnt < n) ∧ s.initState.Rests := by
    simpa [State.PhaseFits, hp] using hs
  rcases countBusyPoll_cases i s with ⟨-, h⟩ | ⟨-, -, h⟩ | ⟨-, hne, h⟩ <;> rw [h]
  · simpa [State.PhaseFits] using hi
  · simpa [State.PhaseFits] using hi
  · have hlt : ∀ n, s.busyBound = some n → s.cnt + 1 < n := fun n hn =>
      Nat.lt_of_le_of_ne (hc n hn) fun e => hne (e ▸ hn)
    simpa [State.PhaseFits, hp, hop, hi] using hlt

/-! ### The loops keep it -/

/-- How many bytes the loop of a phase sends or receives (R7, R120). -/
def Phase.byteCeiling : Phase → BitVec 10
  | .iResetCmd | .iOpCondCmd | .iStatusCmd | .rCmd | .wCmd => 8#10
  | .rData | .wData => 512#10
  | .rCrc | .wCrc => 2#10
  | _ => 0#10

/-- Whether a phase polls for a response with READ_R1 (R27, R140). -/
def Phase.PollsR1 (p : Phase) : Prop := p = .iResetResp ∨ p = .iOpCondResp ∨ p = .iStatusHi ∨ p = .rAck ∨ p = .wAck

theorem State.PhaseFits.nextByte {s : State} (h : s.PhaseFits) (hpos : s.phase.byteCeiling ≠ 0#10)
    (hne : s.byte + 1#10 ≠ s.phase.byteCeiling) : { s with byte := s.byte + 1#10 }.PhaseFits := by
  have hlt : s.byte.toNat < s.phase.byteCeiling.toNat := by
    unfold State.PhaseFits at h
    cases hp : s.phase <;> simp_all [Phase.byteCeiling]
  have hlt := toNat_add_one_lt hlt hne
  unfold State.PhaseFits at h ⊢
  cases hp : s.phase <;> simp_all [Phase.byteCeiling, State.Latches]

theorem State.PhaseFits.nextPoll {s : State} (h : s.PhaseFits) (hp : s.phase.PollsR1)
    (hne : s.poll + 1#4 ≠ 8#4) : { s with poll := s.poll + 1#4 }.PhaseFits := by
  have hlt : s.poll.toNat < (8#4).toNat := by
    unfold State.PhaseFits at h
    rcases hp with hp | hp | hp | hp | hp <;> simp_all
  have hlt := toNat_add_one_lt hlt hne
  unfold State.PhaseFits at h ⊢
  rcases hp with hp | hp | hp | hp | hp <;> simp_all

/-- A byte counted by the loop of the phase. -/
theorem countByte_phaseFits {n : BitVec 10} {done : State → State} {s : State} (h : s.PhaseFits)
    (hn : s.phase.byteCeiling = n) (hpos : n ≠ 0#10) (hdone : (done { s with byte := s.byte + 1#10 }).PhaseFits) :
    (countByte n done s).PhaseFits := by
  rcases countByte_cases n done s with ⟨-, he⟩ | ⟨hne, he⟩ <;> rw [he]
  · exact hdone
  · exact h.nextByte (hn ▸ hpos) (hn ▸ hne)

/-- A poll counted by READ_R1. -/
theorem countPoll_phaseFits {r : Byte} {done : State → State} {s : State} (h : s.PhaseFits) (hp : s.phase.PollsR1)
    (hdone : (done { s with poll := s.poll + 1#4, r1 := r }).PhaseFits) : (countPoll r done s).PhaseFits := by
  rcases countPoll_cases r done s with ⟨-, he⟩ | ⟨-, hne, he⟩ <;> rw [he]
  · exact hdone
  · exact h.nextPoll hp hne

/-- The assignments after an exchange lead to a phase whose part of the invariant holds. -/
theorem afterAnswer_phaseFits (i : Byte) {s : State} (hi : s.phase ≠ .idle) (hx : s.phase ≠ .iXportInit)
    (hb : s.busyBound ≠ some 0) (h : s.PhaseFits) : (afterAnswer s.phase i s).PhaseFits := by
  have hf := h
  unfold State.PhaseFits at hf
  cases hp : s.phase <;> simp only [hp] at hf
  case idle => exact absurd hp hi
  case iXportInit => exact absurd hp hx
  case iResetCmd | iOpCondCmd | iStatusCmd | rCmd | wCmd =>
    exact countByte_phaseFits h (by simp [hp, Phase.byteCeiling]) (by decide) (by simp [State.PhaseFits, hf])
  case iResetResp =>
    obtain ⟨hop, -, hc, hs⟩ := hf
    exact countPoll_phaseFits h (by simp [hp, Phase.PollsR1]) (resetAttempt_phaseFits i hop hc hs)
  case iOpCondResp =>
    obtain ⟨hop, -, hc, hs⟩ := hf
    exact countPoll_phaseFits h (by simp [hp, Phase.PollsR1]) (opCondAttempt_phaseFits i hop hc hs)
  case iStatusHi | rAck =>
    exact countPoll_phaseFits h (by simp [hp, Phase.PollsR1]) (by simp [State.PhaseFits, hf, Config.nToken])
  case iStatusLo => exact statusCheck_phaseFits _ _
  case rToken => exact countTokenPoll_phaseFits i hp h
  case rData =>
    have hw : { s with buf := Memory.write s.buf s.byte.toNat i }.PhaseFits := h
    exact countByte_phaseFits hw (by simp [hp, Phase.byteCeiling]) (by decide) (by simp [State.PhaseFits, hf])
  case rCrc => exact countByte_phaseFits h (by simp [hp, Phase.byteCeiling]) (by decide) (by simp [State.PhaseFits, hf])
  case wAck =>
    obtain ⟨hop, -, hs⟩ := hf
    exact countPoll_phaseFits h (by simp [hp, Phase.PollsR1]) (ackDecision_phaseFits i hop hs)
  case wToken => simp [afterAnswer, State.PhaseFits, hf]
  case wData | wCrc =>
    exact countByte_phaseFits h (by simp [hp, Phase.byteCeiling]) (by decide) (by simp [State.PhaseFits, hf])
  case wResp =>
    have hpos : ∀ n, s.busyBound = some n → 0 < n := fun n hn => Nat.pos_of_ne_zero fun e => hb (e ▸ hn)
    simpa [afterAnswer, State.PhaseFits, hf] using hpos
  case wBusy => exact countBusyPoll_phaseFits i hp h

end Sys2Proof.Machine
end

section
/-! The invariant of the states the block can be in: reset meets it, and every step keeps it. -/

namespace Sys2Proof.Machine

/-! ### The running operation -/

theorem sequence_phaseFits {s t : State} (hs : s.Inv) (hi : s.phase ≠ .idle) (h : sequence s = .next t) : t.PhaseFits := by
  obtain ⟨-, -, hbound, hfits⟩ := s.inv_iff.mp hs
  by_cases hx : s.phase = .iXportInit
  · have hop : s.op = 1#3 := hs.opFits _ (by simp [hx, Phase.opCode])
    rw [sequence_next_of_xportInit h hx]
    simp [State.PhaseFits, State.Latches, State.beginReset, hop]
  · obtain ⟨i, -, rfl⟩ := sequence_next h hi hx
    have ha := afterAnswer_phaseFits i (s := s.consume.record (.xchg s.sends i)) (by simpa using hi) (by simpa using hx)
      (by simpa using hbound) (by simpa [State.PhaseFits, State.Latches] using hfits)
    simpa using ha

theorem State.Inv.wf_bufAfter {s : State} (hs : s.Inv) (i : Byte) : Memory.wf (s.bufAfter i) = true := by
  unfold State.bufAfter
  split
  · next hp =>
    have hbyte : s.byte.toNat < 512 := by simpa [State.CountersFit, hp] using hs.countersFit
    exact Memory.wf_write _ _ _ hbyte hs.bufCanonical
  · exact hs.bufCanonical

theorem sequence_keeps_inv {s t : State} (hs : s.Inv) (h : sequence s = .next t) : t.Inv := by
  by_cases hi : s.phase = .idle
  · simp only [sequence, hi] at h
    cases h
    exact hs
  have hbusy : s.busy = true := hs.busyIff.mpr hi
  obtain ⟨-, -, -, hbound, -⟩ := latchedOperandsStay s t h
  refine t.inv_iff.mpr ⟨?_, ?_, hbound ▸ hs.boundPositive, sequence_phaseFits hs hi h⟩
  · obtain ⟨-, hp⟩ | ⟨-, i, -, hp⟩ := sequence_proceeds h hi <;>
      obtain ⟨-, -, -, -, hbuf, -⟩ := State.surroundings_eq_iff.mp hp.surroundings <;> rw [hbuf]
    · exact hs.bufCanonical
    · exact hs.wf_bufAfter i
  · obtain ⟨hb, hp, -⟩ | ⟨hb, hp, -⟩ := resultIsWrittenAtTheEndOnly s t hbusy hi h <;> simp [hb, hp]

/-! ### A procedure run on its own (log entry 10) -/

/-- What a procedure, a classifier's arm or an event on its own leaves alone, all else blanked. -/
def State.standing (s : State) : State :=
  { State.reset with
    busy := s.busy, phase := s.phase, op := s.op, addr := s.addr, initState := s.initState, result := s.result
    writeAckMode := s.writeAckMode, busyBound := s.busyBound, buf := s.buf, sink := s.sink, host := s.host }

theorem State.standing_eq_iff {s t : State} : t.standing = s.standing ↔
    t.busy = s.busy ∧ t.phase = s.phase ∧ t.op = s.op ∧ t.addr = s.addr ∧ t.initState = s.initState ∧
      t.result = s.result ∧ t.writeAckMode = s.writeAckMode ∧ t.busyBound = s.busyBound ∧ t.buf = s.buf ∧
      t.sink = s.sink ∧ t.host = s.host := by
  simp [State.standing]

theorem xchg_standing {o : Byte} {s t : State} {k : Byte → State → Out} (h : xchg o s k = .next t) :
    ∃ i u, u.standing = s.standing ∧ k i u = .next t := by
  obtain ⟨i, -, hk⟩ := xchg_next h
  exact ⟨i, _, by simp [State.standing], hk⟩

theorem sendFrame_standing (n : Nat) {s t : State} {k : State → Out} (h : sendFrame n s k = .next t) :
    ∃ u, u.standing = s.standing ∧ k u = .next t := by
  induction n generalizing s with
  | zero => exact ⟨s, rfl, h⟩
  | succ n ih =>
    obtain ⟨i, u, -, rfl, ⟨-, hk⟩ | ⟨-, hk⟩⟩ := frameStep_next h
    · exact ⟨_, by simp [State.standing], hk⟩
    · obtain ⟨v, hv, hk⟩ := ih hk
      exact ⟨v, hv.trans (by simp [State.standing]), hk⟩

theorem sendCommand_standing {index : BitVec 6} {hi lo : Half} {s t : State}
    (h : sendCommand index hi lo s .next = .next t) : t.standing = s.standing := by
  obtain ⟨u, hu, hk⟩ := sendFrame_standing _ h
  cases hk
  exact hu

theorem pollR1_standing (n : Nat) {s t : State} {k : Byte → State → Out} (h : pollR1 n s k = .next t) :
    ∃ r u, u.standing = s.standing ∧ k r u = .next t := by
  induction n generalizing s with
  | zero => exact ⟨s.r1, s, rfl, h⟩
  | succ n ih =>
    obtain ⟨r, u, -, rfl, ⟨-, hk⟩ | ⟨-, -, hk⟩⟩ := pollStep_next h
    · exact ⟨r, _, by simp [State.standing], hk⟩
    · obtain ⟨r', v, hv, hk⟩ := ih hk
      exact ⟨r', v, hv.trans (by simp [State.standing]), hk⟩

theorem execReadR1_standing {s t : State} (h : execReadR1 s = .next t) : t.standing = s.standing := by
  obtain ⟨r, u, hu, hk⟩ := pollR1_standing _ h
  cases hk
  exact hu

theorem execReadR2_standing {s t : State} (h : execReadR2 s = .next t) : t.standing = s.standing := by
  obtain ⟨r, u, hu, hk⟩ := pollR1_standing _ h
  obtain ⟨i, v, hv, hk⟩ := xchg_standing hk
  cases hk
  exact hv.trans hu

/-- All that an instruction can do while `BUSY = 0`: a host operation is accepted, and every other one leaves the operation's
registers, the configuration and the buffer alone. -/
theorem exec_next_of_idle {i : Instr} {s t : State} (hb : s.busy = false) (h : exec i s = .next t) :
    t.standing = s.standing ∨ (∃ c, t = (s.accept c).control) ∨
      (∃ x, i = .initializeCard x ∧ t = (s.accept 1#3).dispatch) ∨
      (∃ a, i = .readSector a ∧ t = { s.accept 2#3 with addr := a }.dispatch) ∨
      (∃ a, i = .writeSector a ∧ t = { s.accept 3#3 with addr := a }.dispatch) := by
  cases i with
  | sendCommand | cmd0 | cmd1 | cmd13 | cmd17 | cmd24 => exact .inl (sendCommand_standing h)
  | controlNoop x =>
    simp only [exec, execControlNoop, hb] at h
    cases h
    exact .inr (.inl ⟨0#3, rfl⟩)
  | controlQuerySectorCount x =>
    simp only [exec, execControlQuerySectorCount, hb] at h
    cases h
    exact .inr (.inl ⟨4#3, rfl⟩)
  | initializeCard x =>
    simp only [exec, execInitializeCard, hb] at h
    cases h
    exact .inr (.inr (.inl ⟨x, rfl, rfl⟩))
  | readSector a =>
    simp only [exec, execReadSector, hb] at h
    cases h
    exact .inr (.inr (.inr (.inl ⟨a, rfl, rfl⟩)))
  | writeSector a =>
    simp only [exec, execWriteSector, hb] at h
    cases h
    exact .inr (.inr (.inr (.inr ⟨a, rfl, rfl⟩)))
  | readR1 => exact .inl (execReadR1_standing h)
  | readR2 => exact .inl (execReadR2_standing h)
  | idle | dataStartToken =>
    simp only [exec, execIdle, execDataStartToken] at h
    obtain ⟨i, u, hu, hk⟩ := xchg_standing h
    cases hk
    exact .inl hu
  | rdblock | wrblock =>
    simp only [exec, execRdblock, execWrblock, hb] at h
    cases h
    exact .inl rfl
  | resultOk | resultNoResponse | resultUnexpectedResetResponse | resultCardNotReady | resultStatusNotReady
  | resultProtocolError | resultFramingError | resultBusyTimeout =>
    cases h
    exact .inl (by rw [State.endBy_of_idle _ hb])
  | diagR1Class | diagR2Class =>
    cases h
    exact .inl (by simp [State.standing])
  | _ =>
    cases h
    exact .inl rfl

/-! ### The host's moves -/

theorem State.Inv.of_standing {s t : State} (hs : s.Inv) (hb : s.busy = false) (h : t.standing = s.standing) : t.Inv := by
  obtain ⟨hbuf, hbusy, hbound, hfits⟩ := s.inv_iff.mp hs
  obtain ⟨htb, htp, -, -, hti, -, -, htbound, htbuf, -, -⟩ := State.standing_eq_iff.mp h
  have hp : s.phase = .idle := by simpa [hb] using hbusy
  rw [State.phaseFits_of_idle hp] at hfits
  rw [t.inv_iff, State.phaseFits_of_idle (htp.trans hp), htb, htp, hti, htbound, htbuf]
  exact ⟨hbuf, hbusy, hbound, hfits⟩

theorem exec_keeps_inv {i : Instr} {s t : State} (hs : s.Inv) (hb : s.busy = false) (h : exec i s = .next t) : t.Inv := by
  obtain ⟨hbuf, hbusy, hbound, hfits⟩ := s.inv_iff.mp hs
  have hp : s.phase = .idle := by simpa [hb] using hbusy
  rw [State.phaseFits_of_idle hp] at hfits
  obtain hstanding | ⟨c, rfl⟩ | ⟨x, -, rfl⟩ | ⟨a, -, rfl⟩ | ⟨a, -, rfl⟩ := exec_next_of_idle hb h
  · exact hs.of_standing hb hstanding
  all_goals
    simp [State.inv_iff, State.PhaseFits, State.Latches, State.dispatch, State.beginRead, State.beginWrite, *]

theorem State.Inv.withHost {s : State} (hs : s.Inv) (moves : List HostMove) : { s with host := moves }.Inv :=
  { hs with bufCanonical := hs.bufCanonical }

theorem State.Inv.blockReset {s : State} (hs : s.Inv) (line : Transport) : (s.blockReset line).Inv := by
  simp [State.inv_iff, State.blockReset, State.reset, State.PhaseFits, InitState.Rests, hs.bufCanonical]

theorem takeMove_keeps_inv {m : HostMove} {s t : State} (hs : s.Inv) (hb : s.busy = false) (h : takeMove m s = .next t) :
    t.Inv := by
  obtain ⟨hbuf, hbusy, hbound, hfits⟩ := s.inv_iff.mp hs
  have hp : s.phase = .idle := by simpa [hb] using hbusy
  cases m with
  | request bytes =>
    simp only [takeMove] at h
    split at h
    · exact exec_keeps_inv hs hb h
    · cases h
  | setWriteAckMode mode =>
    cases h
    exact { hs with bufCanonical := hbuf }
  | setBusyBound bound =>
    simp only [takeMove] at h
    split at h
    · cases h
    · next hne =>
      cases h
      exact { hs with boundPositive := hne, countersFit := by simp [State.CountersFit, hp] }
  | storeBuffer index value =>
    cases h
    exact { hs with bufCanonical := Memory.wf_write _ _ _ index.isLt hbuf }
  | await | pause =>
    cases h
    exact hs
  | reset line =>
    cases h
    exact hs.blockReset line

/-- Settles O46. -/
theorem resetStateMeetsTheInvariant : Obligations.ResetStateMeetsTheInvariant :=
  State.reset.inv_iff.mpr ⟨Memory.wf_reset, by simp [State.reset], by simp [State.reset],
    (State.phaseFits_of_idle rfl).mpr (by simp [State.reset, InitState.Rests])⟩

/-- Settles O47: a step is a reset, the running operation's next transaction, waiting, or a move of the host in `Idle`, and each
of them keeps the invariant. -/
theorem stepKeepsTheInvariant : Obligations.StepKeepsTheInvariant := by
  intro s t hs h
  obtain ⟨line, rest, -, he⟩ | ⟨-, moves, he⟩ | ⟨-, he⟩ | ⟨-, moves, he⟩ | ⟨hb, m, rest, -, he⟩ := step_cases s <;>
    rw [he] at h
  · cases h
    exact (hs.withHost rest).blockReset line
  · exact sequence_keeps_inv (hs.withHost moves) h
  · cases h
  · cases h
    exact hs.withHost moves
  · exact takeMove_keeps_inv (hs.withHost rest) hb h

end Sys2Proof.Machine
end

section
/-! What no transaction and no instruction reads: an operation of the model gives the same outcome with it replaced (R21, R28,
R29, R33, R257, R267). -/

namespace Sys2Proof.Machine

/-- The replacements of fields that no transaction and no instruction reads: the outcomes with the histories, the diagnostics,
and the host's moves. -/
inductive Unread : (State → State) → Prop where
  | history : Unread State.withoutHistory
  | diagnostics : Unread State.withoutDiagnostics
  | host (moves : List HostMove) : Unread fun s => { s with host := moves }

/-- `g` gives the same outcome and, but for what `f` replaces, the same next state with it replaced. -/
def Ignores (f : State → State) (g : State → Out) : Prop := ∀ s, mapNext f (g s) = mapNext f (g (f s))

/-- `g` gives, but for what `f` replaces, the same state with it replaced. -/
def IgnoresIn (f g : State → State) : Prop := ∀ s, f (g s) = f (g (f s))

section
variable {f : State → State} (hf : Unread f)

theorem Ignores.eq_of_eq {g : State → Out} (hg : Ignores f g) {s t : State} (h : f s = f t) :
    mapNext f (g s) = mapNext f (g t) := by
  rw [hg s, hg t, h]

theorem IgnoresIn.next {g : State → State} (hg : IgnoresIn f g) : Ignores f fun s => .next (g s) :=
  fun s => congrArg Host.Outcome.next (hg s)

theorem Ignores.ite {c : State → Prop} [DecidablePred c] {g h : State → Out} (hc : ∀ s, c (f s) ↔ c s) (hg : Ignores f g)
    (hh : Ignores f h) : Ignores f fun s => if c s then g s else h s := by
  intro s
  simp only [hc]
  split
  · exact hg s
  · exact hh s

theorem Ignores.comp {g : State → Out} {h : State → State} (hg : Ignores f g) (hh : IgnoresIn f h) :
    Ignores f fun s => g (h s) :=
  fun s => hg.eq_of_eq (hh s)

theorem IgnoresIn.comp {g h : State → State} (hg : IgnoresIn f g) (hh : IgnoresIn f h) : IgnoresIn f fun s => g (h s) := by
  intro s
  rw [hg (h s), hh s, ← hg]

theorem IgnoresIn.comp_of_read {α : Type} {g : α → State → State} {w : State → α} {h : State → State}
    (hg : ∀ a, IgnoresIn f (g a)) (hw : ∀ s, w (f s) = w s) (hh : IgnoresIn f h) : IgnoresIn f fun s => g (w s) (h s) := by
  intro s
  simp only [hw]
  exact (hg (w s)).comp hh s

theorem IgnoresIn.ite {c : State → Prop} [DecidablePred c] {g h : State → State} (hc : ∀ s, c (f s) ↔ c s)
    (hg : IgnoresIn f g) (hh : IgnoresIn f h) : IgnoresIn f fun s => if c s then g s else h s := by
  intro s
  simp only [hc]
  split
  · exact hg s
  · exact hh s

include hf

/-! ### Transactions -/

theorem Unread.answerAt (s : State) (k : Nat) : (f s).answerAt k = s.answerAt k := by
  cases hf <;> rfl

theorem Unread.consume : IgnoresIn f (·.consume) := by
  intro s
  rcases hx : s.xport with ⟨_ | ⟨a, rest⟩, after, inits⟩ <;> cases hf <;> cases after <;>
    simp [State.consume, State.withoutHistory, State.withoutDiagnostics, hx]

theorem Unread.record (e : Transaction) : IgnoresIn f (·.record e) := by
  intro s
  cases hf <;> rfl

theorem Ignores.xchg {o : State → Byte} {k : Byte → State → Out} (ho : ∀ s, o (f s) = o s) (hk : ∀ i, Ignores f (k i)) :
    Ignores f fun s => xchg (o s) s k := by
  intro s
  simp only [Machine.xchg, hf.answerAt, ho]
  cases s.answerAt 0 with
  | none => rfl
  | some i => exact (hk i).eq_of_eq ((hf.record _).comp hf.consume s)

theorem Ignores.xportInit {k : State → Out} (hk : Ignores f k) : Ignores f fun s => xportInit s k := by
  have hc : IgnoresIn f fun s => s.countInit.record .init := fun s => by cases hf <;> rfl
  exact Ignores.ite (fun s => by cases hf <;> rfl) (fun s => rfl) (hk.comp hc)

theorem Ignores.memRead {n : State → Nat} {k : Byte → State → Out} (hn : ∀ s, n (f s) = n s) (hk : ∀ b, Ignores f (k b)) :
    Ignores f fun s => memRead (n s) s k := by
  intro s
  have hb : (f s).buf = s.buf := by cases hf <;> rfl
  simp only [Machine.memRead, hn, hb]
  split
  · exact hk _ s
  · rfl

theorem Ignores.memWrite {n : State → Nat} {v : Byte} {k : State → Out} (hn : ∀ s, n (f s) = n s) (hk : Ignores f k) :
    Ignores f fun s => memWrite (n s) v s k := by
  intro s
  simp only [Machine.memWrite, hn]
  split
  · exact hk.eq_of_eq (by cases hf <;> rfl)
  · rfl

theorem Ignores.frameStep {done more : State → Out} (hd : Ignores f done) (hm : Ignores f more) :
    Ignores f fun s => frameStep s done more := by
  have hc : IgnoresIn f fun s => { s with byte := s.byte + 1#10 } := fun s => by cases hf <;> rfl
  exact Ignores.xchg hf (fun s => by cases hf <;> rfl) fun i =>
    Ignores.ite (fun s => by cases hf <;> rfl) (hd.comp hc) (hm.comp hc)

theorem Ignores.checksumStep {done more : State → Out} (hd : Ignores f done) (hm : Ignores f more) :
    Ignores f fun s => checksumStep s done more := by
  have hc : IgnoresIn f fun s => { s with byte := s.byte + 1#10 } := fun s => by cases hf <;> rfl
  exact Ignores.xchg hf (fun s => rfl) fun i => Ignores.ite (fun s => by cases hf <;> rfl) (hd.comp hc) (hm.comp hc)

theorem Ignores.pollStep {done : Byte → State → Out} {more : State → Out} (hd : ∀ r, Ignores f (done r))
    (hm : Ignores f more) : Ignores f fun s => pollStep s done more := by
  have hc : IgnoresIn f fun s => { s with poll := s.poll + 1#4 } := fun s => by cases hf <;> rfl
  have hr : ∀ r, IgnoresIn f fun s => { s with poll := s.poll + 1#4, r1 := r } := fun r s => by cases hf <;> rfl
  exact Ignores.xchg hf (fun s => rfl) fun r =>
    Ignores.ite (fun s => by cases hf <;> rfl) ((hd r).comp (hr r)) (hm.comp hc)

/-! ### Decisions -/

theorem Unread.report (e : DiagEvent) : IgnoresIn f (·.report e) := by
  intro s
  cases hf <;> cases hs : s.sink <;> simp [State.report, State.withoutHistory, State.withoutDiagnostics, hs]

theorem Unread.reportR1 (b : Byte) : IgnoresIn f (·.reportR1 b) := hf.report _

theorem Unread.reportR2 (w : Half) : IgnoresIn f (·.reportR2 w) := hf.report _

theorem Unread.raise (g : Failure) : IgnoresIn f (·.raise g) := by
  intro s
  cases hf <;> cases g <;> rfl

theorem Unread.next : Ignores f .next :=
  IgnoresIn.next fun s => by cases hf <;> rfl

theorem Unread.resetAttempt (r : Byte) : IgnoresIn f (resetAttempt r) := by
  have hc : IgnoresIn f fun s => { s with cnt := s.cnt + 1 } := fun s => by cases hf <;> rfl
  refine IgnoresIn.ite (fun _ => Iff.rfl) (fun s => by cases hf <;> rfl)
    (IgnoresIn.ite (fun s => by cases hf <;> rfl) (IgnoresIn.ite (fun _ => Iff.rfl) ?_ ?_) (fun s => by cases hf <;> rfl))
  · exact (hf.raise _).comp hc
  · exact (hf.raise _).comp ((hf.reportR1 r).comp hc)

theorem Unread.opCondAttempt (r : Byte) : IgnoresIn f (opCondAttempt r) := by
  have hc : IgnoresIn f fun s => { s with cnt := s.cnt + 1 } := fun s => by cases hf <;> rfl
  have hr : IgnoresIn f fun s => { s with cnt := s.cnt + 1 }.reportR1 r := (hf.reportR1 r).comp hc
  have hb : IgnoresIn f State.beginOpCond := fun s => by cases hf <;> rfl
  have hcnt : ∀ s, ({ f s with cnt := (f s).cnt + 1 }.reportR1 r).cnt = ({ s with cnt := s.cnt + 1 }.reportR1 r).cnt := by
    intro s
    cases hf <;> simp [State.withoutHistory, State.withoutDiagnostics]
  refine IgnoresIn.ite (fun _ => Iff.rfl) (fun s => by cases hf <;> rfl) ?_
  exact IgnoresIn.ite (fun s => by rw [hcnt]) ((hf.raise _).comp hr) (hb.comp hr)

theorem Unread.statusCheck (w : Half) : IgnoresIn f (statusCheck w) :=
  IgnoresIn.ite (fun _ => Iff.rfl) (fun s => by cases hf <;> rfl) ((hf.raise _).comp (hf.reportR2 w))

/-- A failure with its event, both about registers that stay. -/
theorem Unread.fail {b : State → Byte} {g : State → Failure} (hb : ∀ s, b (f s) = b s) (hg : ∀ s, g (f s) = g s) :
    IgnoresIn f fun s => (s.reportR1 (b s)).raise (g s) := by
  intro s
  simp only [hb, hg]
  exact (hf.raise _).comp (hf.reportR1 _) s

theorem Unread.tokenDecision : IgnoresIn f tokenDecision := by
  have ha : ∀ s, (f s).ack = s.ack := fun s => by cases hf <;> rfl
  have ht : ∀ s, (f s).tok = s.tok := fun s => by cases hf <;> rfl
  refine IgnoresIn.ite (fun s => by rw [ht]) (hf.fail ht fun _ => rfl) ?_
  refine IgnoresIn.ite (fun s => by rw [ha]) (hf.fail ha fun s => by rw [ha]) ?_
  exact IgnoresIn.ite (fun s => by rw [ht]) (hf.fail ht fun s => by rw [ht]) fun s => by cases hf <;> rfl

theorem Unread.ackDecision (r : Byte) : IgnoresIn f (ackDecision r) := by
  have ha : IgnoresIn f fun s => { s with ack := r } := fun s => by cases hf <;> rfl
  exact IgnoresIn.ite (fun s => by cases hf <;> rfl) (((hf.raise (.io (.protocolError r))).comp (hf.reportR1 r)).comp ha)
    fun s => by cases hf <;> rfl

/-! ### The sequencer -/

theorem Unread.stepXportInit : Ignores f stepXportInit :=
  Ignores.xportInit hf (IgnoresIn.next fun s => by cases hf <;> rfl)

/-- A phase that sends a frame and then polls. -/
theorem Unread.stepFrame (p : Phase) : Ignores f fun s => frameStep s (fun t => .next (t.enterPoll p)) .next :=
  Ignores.frameStep hf (IgnoresIn.next fun s => by cases hf <;> rfl) hf.next

/-- A phase that polls for a response. -/
theorem Unread.stepPoll {g : Byte → State → State} (hg : ∀ r, IgnoresIn f (g r)) :
    Ignores f fun s => pollStep s (fun r t => .next (g r t)) .next :=
  Ignores.pollStep hf (fun r => (hg r).next) hf.next

/-- A phase that sends or receives the two checksum bytes. -/
theorem Unread.stepChecksum {g : State → State} (hg : IgnoresIn f g) :
    Ignores f fun s => checksumStep s (fun t => .next (g t)) .next :=
  Ignores.checksumStep hf hg.next hf.next

theorem Unread.stepStatusLo : Ignores f stepStatusLo := by
  refine Ignores.xchg hf (fun _ => rfl) fun low => IgnoresIn.next ?_
  have hw : ∀ s, composeR2 (f s).r1 low = composeR2 s.r1 low := fun s => by cases hf <;> rfl
  have hr : IgnoresIn f fun s => { s with r2 := composeR2 s.r1 low } := fun s => by cases hf <;> rfl
  exact IgnoresIn.comp_of_read hf.statusCheck hw hr

theorem Unread.stepReadToken : Ignores f stepReadToken := by
  refine Ignores.xchg hf (fun _ => rfl) fun b => IgnoresIn.next ?_
  have hc : IgnoresIn f fun s => { s with tok := b, cnt := s.cnt + 1 } := fun s => by cases hf <;> rfl
  exact IgnoresIn.ite (fun s => by cases hf <;> rfl) (hf.tokenDecision.comp hc) hc

/-- A payload byte is counted, and after the last one the checksum begins. -/
theorem Unread.countPayload (p : Phase) : Ignores f fun s =>
    let v := { s with byte := s.byte + 1#10 }
    .next (if v.byte = 512#10 then v.enterBytes p else v) :=
  IgnoresIn.next (IgnoresIn.ite (fun s => by cases hf <;> rfl) (fun s => by cases hf <;> rfl) fun s => by cases hf <;> rfl)

theorem Unread.stepReadData : Ignores f stepReadData :=
  Ignores.xchg hf (fun _ => rfl) fun _ => Ignores.memWrite hf (fun s => by cases hf <;> rfl) (hf.countPayload .rCrc)

theorem Unread.stepWriteData : Ignores f stepWriteData :=
  Ignores.memRead hf (fun s => by cases hf <;> rfl) fun b => Ignores.xchg hf (o := fun _ => b) (fun _ => rfl) fun _ =>
    hf.countPayload .wCrc

theorem Unread.stepWriteToken : Ignores f stepWriteToken :=
  Ignores.xchg hf (fun _ => rfl) fun _ => IgnoresIn.next fun s => by cases hf <;> rfl

theorem Unread.stepWriteResp : Ignores f stepWriteResp :=
  Ignores.xchg hf (fun _ => rfl) fun _ => IgnoresIn.next fun s => by cases hf <;> rfl

theorem Unread.stepWriteBusy : Ignores f stepWriteBusy := by
  refine Ignores.xchg hf (fun _ => rfl) fun w => IgnoresIn.next ?_
  have hc : IgnoresIn f fun s => { s with cnt := s.cnt + 1 } := fun s => by cases hf <;> rfl
  refine IgnoresIn.ite (fun _ => Iff.rfl) (fun s => by cases hf <;> rfl) ?_
  exact IgnoresIn.ite (fun s => by cases hf <;> rfl) ((hf.raise _).comp hc) hc

/-- No transaction of a running operation reads it. -/
theorem Unread.sequence : Ignores f sequence := by
  intro s
  have hp : (f s).phase = s.phase := by cases hf <;> rfl
  unfold Machine.sequence
  rw [hp]
  cases s.phase with
  | idle => exact hf.next s
  | iXportInit => exact hf.stepXportInit s
  | iResetCmd | iOpCondCmd | iStatusCmd | rCmd | wCmd => exact hf.stepFrame _ s
  | iResetResp => exact hf.stepPoll hf.resetAttempt s
  | iOpCondResp => exact hf.stepPoll hf.opCondAttempt s
  | iStatusHi => exact hf.stepPoll (g := fun _ t => { t with phase := .iStatusLo }) (fun r s => by cases hf <;> rfl) s
  | rAck => exact hf.stepPoll (g := fun r t => { t with ack := r }.enterCount .rToken) (fun r s => by cases hf <;> rfl) s
  | wAck => exact hf.stepPoll hf.ackDecision s
  | iStatusLo => exact hf.stepStatusLo s
  | rToken => exact hf.stepReadToken s
  | rData => exact hf.stepReadData s
  | rCrc => exact hf.stepChecksum (g := (·.succeed 0#16)) (fun s => by cases hf <;> rfl) s
  | wCrc => exact hf.stepChecksum (g := fun t => { t with phase := .wResp }) (fun s => by cases hf <;> rfl) s
  | wToken => exact hf.stepWriteToken s
  | wData => exact hf.stepWriteData s
  | wResp => exact hf.stepWriteResp s
  | wBusy => exact hf.stepWriteBusy s

/-! ### The instructions -/

theorem Ignores.sendFrame {k : State → Out} (hk : Ignores f k) (n : Nat) : Ignores f fun s => sendFrame n s k := by
  induction n with
  | zero => exact hk
  | succ n ih => exact Ignores.frameStep hf hk ih

theorem Unread.sendCommand (index : BitVec 6) (hi lo : Half) : Ignores f fun s => sendCommand index hi lo s .next :=
  (Ignores.sendFrame hf hf.next Config.frameLen).comp
    (h := (·.latchFrame index hi lo)) fun s => by cases hf <;> rfl

theorem Ignores.pollR1 {k : Byte → State → Out} (hk : ∀ r, Ignores f (k r)) (n : Nat) : Ignores f fun s => pollR1 n s k := by
  induction n with
  | zero =>
    intro s
    have hr : (f s).r1 = s.r1 := by cases hf <;> rfl
    simp only [Machine.pollR1, hr]
    exact hk _ s
  | succ n ih => exact Ignores.pollStep hf hk ih

theorem Ignores.readR1 {k : Byte → State → Out} (hk : ∀ r, Ignores f (k r)) : Ignores f fun s => readR1 s k :=
  (Ignores.pollR1 hf hk Config.nR1Poll).comp (h := fun s => { s with poll := 0#4 }) fun s => by cases hf <;> rfl

theorem Ignores.readR2 {k : Half → State → Out} (hk : ∀ w, Ignores f (k w)) : Ignores f fun s => readR2 s k :=
  Ignores.readR1 hf fun high => Ignores.xchg hf (fun _ => rfl) fun low =>
    (hk (composeR2 high low)).comp (h := fun s => { s with r2 := composeR2 high low }) fun s => by cases hf <;> rfl

theorem Unread.endBy (r : Result) : IgnoresIn f (·.endBy r) := by
  refine IgnoresIn.ite (fun s => by cases hf <;> rfl) ?_ fun s => by cases hf <;> rfl
  cases r with
  | none => exact fun s => by cases hf <;> rfl
  | ok v => exact fun s => by cases hf <;> rfl
  | err g => exact hf.raise g

theorem Unread.runUntil (last : Phase) (n : Nat) : Ignores f (runUntil last n) := by
  induction n with
  | zero => exact hf.next
  | succ n ih =>
    have hnext : Ignores f fun t => if t.phase = last then .next t else Machine.runUntil last n t :=
      Ignores.ite (fun s => by cases hf <;> rfl) hf.next ih
    intro s
    have hs := hf.sequence s
    unfold Machine.runUntil
    cases h : Machine.sequence s <;> cases h' : Machine.sequence (f s) <;> rw [h, h'] at hs <;>
      simp only [mapNext, Host.Outcome.next.injEq, Host.Outcome.fault.injEq, Host.Outcome.refused.injEq, reduceCtorEq] at hs
    · exact hnext.eq_of_eq hs
    · rw [hs]
    · rw [hs]

/-- No instruction reads it. -/
theorem Unread.exec (i : Instr) : Ignores f (exec i) := by
  have hbusy : ∀ s, (f s).busy = true ↔ s.busy = true := fun s => by cases hf <;> rfl
  cases i with
  | sendCommand | cmd0 | cmd1 | cmd13 | cmd17 | cmd24 => exact hf.sendCommand _ _ _
  | controlNoop | initializeCard | readSector | writeSector | controlQuerySectorCount =>
    exact IgnoresIn.next (IgnoresIn.ite hbusy (fun s => by cases hf <;> rfl) fun s => by cases hf <;> rfl)
  | readR1 =>
    exact Ignores.readR1 hf (k := fun r t => .next { t with returned := .byte r }) fun r =>
      IgnoresIn.next fun s => by cases hf <;> rfl
  | readR2 =>
    exact Ignores.readR2 hf (k := fun w t => .next { t with returned := .word w }) fun w =>
      IgnoresIn.next fun s => by cases hf <;> rfl
  | idle =>
    exact Ignores.xchg hf (o := fun _ => Config.idleByte) (k := fun i t => .next { t with returned := .byte i }) (fun _ => rfl)
      fun i => IgnoresIn.next fun s => by cases hf <;> rfl
  | dataStartToken => exact Ignores.xchg hf (o := fun _ => Config.tokenStart) (fun _ => rfl) fun _ => hf.next
  | rdblock | wrblock => exact Ignores.ite (fun s => by cases hf <;> rfl) (hf.runUntil _ _) hf.next
  | resultOk | resultNoResponse | resultUnexpectedResetResponse | resultCardNotReady | resultStatusNotReady
  | resultProtocolError | resultFramingError | resultBusyTimeout => exact (hf.endBy _).next
  | diagR1Class | diagR2Class => exact (hf.report _).next
  | _ => exact IgnoresIn.next fun s => by cases hf <;> rfl

/-! ### A step -/

theorem Unread.takeMove (m : HostMove) : Ignores f (takeMove m) := by
  cases m with
  | request bytes =>
    intro s
    simp only [Machine.takeMove]
    cases decode bytes with
    | ok i => exact hf.exec i s
    | error e => rfl
  | setBusyBound bound => exact Ignores.ite (fun _ => Iff.rfl) (fun _ => rfl) (IgnoresIn.next fun s => by cases hf <;> rfl)
  | _ => exact IgnoresIn.next fun s => by cases hf <;> rfl

theorem Unread.moveWhileBusy (m : HostMove) : Ignores f (moveWhileBusy m) := by
  cases m with
  | storeBuffer => exact fun _ => rfl
  | reset line => exact IgnoresIn.next fun s => by cases hf <;> rfl
  | _ => exact hf.sequence

theorem Unread.advance : Ignores f advance :=
  Ignores.ite (fun s => by cases hf <;> rfl) hf.sequence hf.next

/-- No step reads it, when it is not the host's moves. -/
theorem Unread.step (hhost : ∀ s, (f s).host = s.host) : Ignores f step := by
  intro s
  have hbusy : ∀ s, (f s).busy = true ↔ s.busy = true := fun s => by cases hf <;> rfl
  have hmoves : ∀ moves, IgnoresIn f fun s => { s with host := moves } := fun moves s => by cases hf <;> rfl
  have hdrop : ∀ (m : HostMove) (rest : List HostMove), Ignores f fun s =>
      if s.busy then Machine.moveWhileBusy m { s with host := rest } else Machine.takeMove m { s with host := rest } :=
    fun m rest => Ignores.ite hbusy ((hf.moveWhileBusy m).comp (hmoves rest)) ((hf.takeMove m).comp (hmoves rest))
  have hawait : ∀ rest, Ignores f fun s => if s.busy then Machine.sequence s else .next { s with host := rest } :=
    fun rest => Ignores.ite hbusy hf.sequence (hmoves rest).next
  have hreset : ∀ line rest, IgnoresIn f fun s => { s with host := rest }.blockReset line :=
    fun line rest s => by cases hf <;> rfl
  unfold Machine.step nextStep
  rw [hhost s]
  rcases s.host with _ | ⟨m, rest⟩
  · exact hf.advance s
  cases m with
  | reset line => exact (hreset line rest).next s
  | pause n =>
    cases n with
    | zero => exact hf.advance.comp (hmoves rest) s
    | succ n => exact hf.advance.comp (hmoves _) s
  | await => exact hawait rest s
  | _ => exact hdrop _ rest s

end

/-- Settles O59: no transaction, no instruction and no move reads what `withoutHistory` blanks. -/
theorem earlierOutcomesHaveNoEffect : Obligations.EarlierOutcomesHaveNoEffect :=
  Unread.history.step fun _ => rfl

end Sys2Proof.Machine
end

section
/-! The host's side of the block: moves while an operation runs, configuration writes, reset, and the acceptance of a request
(R24, R29, R30, R36, R267). -/

namespace Sys2Proof.Machine

/-- The running operation neither reads nor writes the host's moves. -/
theorem sequence_withHost (s : State) (moves : List HostMove) :
    sequence { s with host := moves } = mapNext (fun t => { t with host := moves }) (sequence s) := by
  have hread := (Unread.host moves).sequence s
  rw [hread]
  cases h : sequence { s with host := moves } with
  | next t =>
    obtain ⟨-, -, -, -, -, -, hhost⟩ := latchedOperandsStay _ t h
    have hhost : t.host = moves := hhost
    have ht : { t with host := moves } = t := by rw [← hhost]
    exact congrArg Host.Outcome.next ht.symm
  | fault r => rfl
  | refused r => rfl

/-- While an operation runs and the host has no move, a step is the operation's next transaction. -/
theorem step_of_busy_of_no_move {s : State} (hb : s.busy = true) :
    step { s with host := [] } = sequence { s with host := [] } :=
  step_of_busy hb (.inl rfl)

/-- Settles O8: each of these steps is the running operation's transaction, which neither reads nor writes the host's moves. -/
theorem moveWhileBusyIsNotAccepted : Obligations.MoveWhileBusyIsNotAccepted := by
  intro s rest hb
  rw [step_of_busy_of_no_move hb]
  have hseq : ∀ moves, sequence { s with host := moves }
      = mapNext (fun t => { t with host := moves }) (sequence { s with host := [] }) :=
    sequence_withHost { s with host := [] }
  refine ⟨?_, ?_, fun n => ?_, fun index value => ?_⟩
  · rintro m (⟨bytes, rfl⟩ | ⟨mode, rfl⟩ | ⟨bound, rfl⟩) <;> rw [← hseq] <;>
      simp [step, nextStep, moveWhileBusy, hb]
  · rw [← hseq]
    exact step_of_busy hb (.inr ⟨rest, rfl⟩)
  · rw [← hseq]
    simp [step, nextStep, advance, hb]
  · simp [step, nextStep, moveWhileBusy, hb]

/-- Settles O9. -/
theorem configurationWrites : Obligations.ConfigurationWrites := by
  intro s rest hb
  simp [step, nextStep, takeMove, hb]

/-- Settles O10. -/
theorem resetValues : Obligations.ResetValues :=
  ⟨rfl, rfl, rfl, rfl, rfl, rfl, rfl, rfl⟩

/-- Settles O11: whatever operation runs, the step is `blockReset`, which R292 lets change the transport. -/
theorem resetAtAnyMoment : Obligations.ResetAtAnyMoment := by
  intro s line rest hh
  have hstep : step s = .next ({ s with host := rest }.blockReset line) := by simp [step, nextStep, hh]
  refine ⟨_, hstep, rfl, rfl, rfl, rfl, rfl, rfl, rfl, rfl, rfl, rfl, rfl, rfl, ?_, ?_⟩
  · exact fun hb => if_pos hb
  · exact fun hb => if_neg (by simp [hb])

/-- Settles O25: the request is accepted, and the sequencer leaves `Idle` for the operation's first phase. -/
theorem requestsStartTheirOperation : Obligations.RequestsStartTheirOperation := by
  intro s x a hb
  simp only [exec, execInitializeCard, execReadSector, execWriteSector, hb]
  exact ⟨rfl, rfl, rfl⟩

end Sys2Proof.Machine
end

section
/-! The byte offset of a sector address (R55, R56). -/

namespace Sys2Proof.Machine

theorem byteOffset_toNat (a : Addr) : (byteOffset a).toNat = a.toNat * 512 % 2 ^ 32 := by
  have ha := a.isLt
  simp only [byteOffset, BitVec.toNat_setWidth, BitVec.toNat_shiftLeft, Nat.shiftLeft_eq]
  omega

theorem byteOffset_lowBits (a : Addr) : (byteOffset a).extractLsb' 0 9 = 0#9 := by
  apply BitVec.eq_of_toNat_eq
  rw [BitVec.extractLsb'_toNat, byteOffset_toNat, Nat.shiftRight_zero, BitVec.toNat_ofNat]
  omega

theorem byteOffset_add_two_pow_23 (a : Addr) : byteOffset (a + 0x00800000#32) = byteOffset a := by
  apply BitVec.eq_of_toNat_eq
  rw [byteOffset_toNat, byteOffset_toNat, BitVec.toNat_add, BitVec.toNat_ofNat]
  omega

/-- Settles O15: all three parts follow from the offset's value; `512` divides `2^32`, and `2^23 × 512 = 2^32` is 0 modulo it. -/
theorem byteOffsetWraps : Obligations.ByteOffsetWraps :=
  fun a => ⟨byteOffset_toNat a, byteOffset_lowBits a, byteOffset_add_two_pow_23 a⟩

end Sys2Proof.Machine
end

section
/-! The caller's buffer: its canonical form is determined by what its indices read, and the running operation writes one index
of it (R51, R52, R53). -/

namespace Sys2Proof.Machine

/-! ### Extensionality of the canonical form -/

theorem Memory.wfFrom_cons_iff {lo k : Nat} {v : Byte} {m : Memory} : Memory.wfFrom lo ((k, v) :: m) = true ↔
    lo ≤ k ∧ k < 512 ∧ v ≠ Memory.unlisted ∧ Memory.wfFrom (k + 1) m = true := by
  simp [Memory.wfFrom, and_assoc]

theorem Memory.read_cons_same (k : Nat) (v : Byte) (m : Memory) : Memory.read ((k, v) :: m) k = v := if_pos rfl

theorem Memory.read_cons_other {k a : Nat} (v : Byte) (m : Memory) (h : k ≠ a) :
    Memory.read ((k, v) :: m) a = Memory.read m a := if_neg h

/-- Below the index a canonical list starts from, nothing is listed. -/
theorem Memory.read_of_lt_of_wfFrom {m : Memory} {lo a : Nat} (ha : a < lo) (h : Memory.wfFrom lo m = true) :
    Memory.read m a = Memory.unlisted := by
  induction m generalizing lo with
  | nil => rfl
  | cons kv m ih =>
    obtain ⟨k, v⟩ := kv
    obtain ⟨hk, -, -, hm⟩ := Memory.wfFrom_cons_iff.mp h
    rw [Memory.read_cons_other v m (by omega)]
    exact ih (by omega) hm

/-- The first listed index is the least one that reads other than unlisted. -/
theorem Memory.head_le_of_read_ne {m : Memory} {lo k a : Nat} {v : Byte} (h : Memory.wfFrom lo ((k, v) :: m) = true)
    (hne : Memory.read ((k, v) :: m) a ≠ Memory.unlisted) : k ≤ a := by
  obtain ⟨-, hk, hv, hm⟩ := Memory.wfFrom_cons_iff.mp h
  by_contra ha
  exact hne (Memory.read_of_lt_of_wfFrom (not_le.mp ha) (Memory.wfFrom_cons_iff.mpr ⟨le_rfl, hk, hv, hm⟩))

theorem Memory.eq_nil_of_wfFrom_of_read {m : Memory} {lo : Nat} (h : Memory.wfFrom lo m = true)
    (hread : ∀ a, Memory.read m a = Memory.unlisted) : m = [] := by
  cases m with
  | nil => rfl
  | cons kv m =>
    obtain ⟨k, v⟩ := kv
    obtain ⟨-, -, hv, -⟩ := Memory.wfFrom_cons_iff.mp h
    exact absurd ((Memory.read_cons_same k v m).symm.trans (hread k)) hv

/-- The heads agree, since what a list reads fixes its first listed index; then the tails read alike. -/
theorem Memory.eq_of_wfFrom_of_read_eq {m m' : Memory} {lo lo' : Nat} (h : Memory.wfFrom lo m = true)
    (h' : Memory.wfFrom lo' m' = true) (hread : ∀ a, Memory.read m a = Memory.read m' a) : m = m' := by
  induction m generalizing lo lo' m' with
  | nil => exact (Memory.eq_nil_of_wfFrom_of_read h' fun a => (hread a).symm).symm
  | cons kv m ih =>
    cases m' with
    | nil => exact Memory.eq_nil_of_wfFrom_of_read h hread
    | cons kv' m' =>
      obtain ⟨k, v⟩ := kv
      obtain ⟨k', v'⟩ := kv'
      obtain ⟨-, -, hv, hm⟩ := Memory.wfFrom_cons_iff.mp h
      obtain ⟨-, -, hv', hm'⟩ := Memory.wfFrom_cons_iff.mp h'
      have hle : k' ≤ k := Memory.head_le_of_read_ne h' (by rwa [← hread k, Memory.read_cons_same])
      have hge : k ≤ k' := Memory.head_le_of_read_ne h (by rwa [hread k', Memory.read_cons_same])
      obtain rfl := le_antisymm hle hge
      have hhead : v = v' := by simpa [Memory.read_cons_same] using hread k'
      have htail : ∀ a, Memory.read m a = Memory.read m' a := by
        intro a
        by_cases ha : k' = a
        · have hlt : a < k' + 1 := by omega
          rw [Memory.read_of_lt_of_wfFrom hlt hm, Memory.read_of_lt_of_wfFrom hlt hm']
        · simpa [Memory.read_cons_other, ha] using hread a
      rw [hhead, ih hm hm' htail]

/-- Settles O60. -/
theorem canonicalBuffersWithEqualBytesAreEqual : Obligations.CanonicalBuffersWithEqualBytesAreEqual :=
  fun _ _ h h' => Memory.eq_of_wfFrom_of_read_eq h h'

/-! ### What the running operation writes -/

/-- Outside `R_Data` no transaction of a running operation touches the buffer. -/
theorem sequence_buf_of_ne_rData {s t : State} (h : sequence s = .next t) (hp : s.phase ≠ .rData) : t.buf = s.buf := by
  by_cases hi : s.phase = .idle
  · simp only [sequence, hi] at h
    cases h
    rfl
  obtain ⟨-, ht⟩ | ⟨-, i, -, ht⟩ := sequence_proceeds h hi <;>
    obtain ⟨-, -, -, -, hbuf, -⟩ := State.surroundings_eq_iff.mp ht.surroundings
  · exact hbuf
  · exact hbuf.trans (if_neg hp)

/-- In `R_Data` the transport's answer is written at index `BYTE` (R52, R207). -/
theorem sequence_buf_of_rData {s t : State} (h : sequence s = .next t) (hp : s.phase = .rData) :
    ∃ i, s.answerAt 0 = some i ∧ t.buf = Memory.write s.buf s.byte.toNat i := by
  obtain ⟨hx, -⟩ | ⟨-, i, ha, ht⟩ := sequence_proceeds h (by simp [hp])
  · simp [hp] at hx
  · obtain ⟨-, -, -, -, hbuf, -⟩ := State.surroundings_eq_iff.mp ht.surroundings
    exact ⟨i, ha, hbuf.trans (if_pos hp)⟩

/-- Settles O54: in `R_Data` the step is one write of the answer at `BYTE`, and a read after that write is the buffer's law. -/
theorem onlyReceivedPayloadIsStored : Obligations.OnlyReceivedPayloadIsStored := by
  intro s t hwf h
  refine ⟨sequence_buf_of_ne_rData h, fun hp => ?_⟩
  obtain ⟨i, ha, hbuf⟩ := sequence_buf_of_rData h hp
  rw [hbuf, ha]
  exact ⟨fun a hne => Memory.read_write_other _ _ _ _ hne.symm, congrArg some (Memory.read_write_same _ _ _ hwf)⟩

end Sys2Proof.Machine
end

section
/-! Exchanges in a row, and transactions of the running operation in a row (R27, R33; log entry 5): stated once for the data
blocks, which make them in one step, and for the sequencer, which makes one a step. -/

namespace Sys2Proof.Machine

/-! ### Exchanges -/

/-- The exchanges with these out bytes and answers have been made, and nothing else has changed (R33, R62). -/
def State.exchanged (s : State) (outs as : List Byte) : State :=
  { s with
    xport := (s.skip as.length).xport, draws := (s.skip as.length).draws
    trace := (exchanges outs as).reverse ++ s.trace }

/-- Answers used up change the transport and the count of free draws only. -/
theorem State.skip_eq (n : Nat) (s : State) :
    s.skip n = { s with xport := (s.skip n).xport, draws := (s.skip n).draws } := by
  ext1 <;> simp

theorem State.consume_record_eq_exchanged (s : State) (o i : Byte) :
    s.consume.record (.xchg o i) = s.exchanged [o] [i] := by
  have hskip : s.consume = { s with xport := s.consume.xport, draws := s.consume.draws } := s.skip_eq 1
  rw [hskip]
  rfl

theorem exchanges_append {outs as : List Byte} (outs' as' : List Byte) (h : outs.length = as.length) :
    exchanges (outs ++ outs') (as ++ as') = exchanges outs as ++ exchanges outs' as' :=
  List.zipWith_append h

/-- Exchanges after exchanges, whatever registers have changed between them. -/
theorem State.exchanged_append {s t : State} {outs as : List Byte} (outs' as' : List Byte)
    (hx : t.xport = (s.exchanged outs as).xport) (hd : t.draws = (s.exchanged outs as).draws)
    (ht : t.trace = (s.exchanged outs as).trace) (hl : outs.length = as.length) :
    t.exchanged outs' as' =
      { t with
        xport := (s.exchanged (outs ++ outs') (as ++ as')).xport
        draws := (s.exchanged (outs ++ outs') (as ++ as')).draws
        trace := (s.exchanged (outs ++ outs') (as ++ as')).trace } := by
  have hskip : (t.skip as'.length).xport = (s.skip (as ++ as').length).xport ∧
      (t.skip as'.length).draws = (s.skip (as ++ as').length).draws := by
    rw [List.length_append, ← State.skip_add]
    exact State.skip_congr _ hx hd
  simp [State.exchanged, hskip, ht, exchanges_append outs' as' hl]

/-- The exchange of a phase whose answer is known. -/
theorem sequence_of_answer {s : State} {i : Byte} (hi : s.phase ≠ .idle) (hx : s.phase ≠ .iXportInit) (hb : s.IndexFits)
    (ha : s.answerAt 0 = some i) : sequence s = .next (afterAnswer s.phase i (s.exchanged [s.sends] [i])) := by
  rw [sequence_eq_xchg hi hx hb, xchg_of_answer ha, State.consume_record_eq_exchanged]

/-! ### Transactions of the running operation -/

/-- `n` transactions of the running operation lead from `s` to `t`, each of them made in one of the phases `ps`. -/
inductive Transacts (ps : List Phase) : Nat → State → State → Prop where
  | refl (s : State) : Transacts ps 0 s s
  | cons {n : Nat} {s u t : State} (hp : s.phase ∈ ps) (h : sequence s = .next u) (hr : Transacts ps n u t) :
    Transacts ps (n + 1) s t

theorem Transacts.one {p : Phase} {s t : State} (hp : s.phase = p) (h : sequence s = .next t) : Transacts [p] 1 s t :=
  .cons (List.mem_singleton.mpr hp) h (.refl t)

theorem Transacts.mono {ps qs : List Phase} {n : Nat} {s t : State} (h : Transacts ps n s t) (hsub : ps ⊆ qs) :
    Transacts qs n s t := by
  induction h with
  | refl s => exact .refl s
  | cons hp hs _ ih => exact .cons (hsub hp) hs ih

/-- Transactions, then transactions. -/
theorem Transacts.append {ps qs : List Phase} {m n : Nat} {s t u : State} (h : Transacts ps m s t)
    (hr : Transacts qs n t u) : Transacts (ps ++ qs) (m + n) s u := by
  induction h with
  | refl s => rw [Nat.zero_add]; exact hr.mono (List.subset_append_right ps qs)
  | cons hp hs _ ih => rw [Nat.succ_add]; exact .cons (List.mem_append_left qs hp) hs (ih hr)

/-- Transactions that lead to the last phase, none of them made in it, are what `runUntil` makes. -/
theorem Transacts.runUntil {ps : List Phase} {last : Phase} {n : Nat} {s t : State} (h : Transacts ps n s t)
    (hlast : last ∉ ps) (hn : 0 < n) (ht : t.phase = last) (k : Nat) : runUntil last (n + k) s = .next t := by
  induction h with
  | refl s => omega
  | @cons n s u t hs hstep hr ih =>
    rw [Nat.succ_add]
    cases hr with
    | refl => exact runUntil_last hstep ht
    | cons hu =>
      have hne : u.phase ≠ last := fun e => hlast (e ▸ hu)
      rw [runUntil_more hstep hne]
      exact ih (Nat.succ_pos _) ht

/-- While the host waits, transactions are steps (R267). -/
theorem Transacts.runs {ps : List Phase} {n : Nat} {s t : State} (h : Transacts ps n s t) (hidle : .idle ∉ ps)
    (hb : s.busy = true) (hw : s.HostWaits) : Runs n s t := by
  induction h with
  | refl s => exact Runs.refl s
  | @cons n s u t hs hstep hr ih =>
    refine Runs.cons (step_of_busy hb hw ▸ hstep) ?_
    cases hr with
    | refl => exact Runs.refl u
    | cons hu =>
      obtain ⟨-, -, -, -, -, -, hhost⟩ := latchedOperandsStay s u hstep
      have hub : u.busy = true := by
        obtain ⟨hub, -, -⟩ | ⟨-, hend, -⟩ := resultIsWrittenAtTheEndOnly s u hb (fun e => hidle (e ▸ hs)) hstep
        · exact hub
        · exact absurd (hend ▸ hu) hidle
      exact ih hub (by simpa [State.HostWaits, hhost] using hw)

/-! ### A state within a data block -/

/-- The state after the exchanges of a data block so far: beside them only `PHASE`, `CNT`, `BYTE`, `TOK` and the buffer have
changed (R96, R97). -/
def State.inBlock (s : State) (outs as : List Byte) (p : Phase) (cnt : Nat) (byte : BitVec 10) (tok : Byte)
    (buf : Memory) : State :=
  { s.exchanged outs as with phase := p, cnt := cnt, byte := byte, tok := tok, buf := buf }

theorem State.inBlock_eq_skip (s : State) (outs as : List Byte) (p : Phase) (cnt : Nat) (byte : BitVec 10) (tok : Byte)
    (buf : Memory) :
    s.inBlock outs as p cnt byte tok buf =
      { s.skip as.length with
        phase := p, cnt := cnt, byte := byte, tok := tok, buf := buf
        trace := (exchanges outs as).reverse ++ s.trace } := by
  rw [s.skip_eq as.length]
  rfl

theorem State.inBlock_exchanged (s : State) {outs as : List Byte} (outs' as' : List Byte) (p : Phase) (cnt : Nat)
    (byte : BitVec 10) (tok : Byte) (buf : Memory) (hl : outs.length = as.length) :
    (s.inBlock outs as p cnt byte tok buf).exchanged outs' as' =
      s.inBlock (outs ++ outs') (as ++ as') p cnt byte tok buf :=
  State.exchanged_append outs' as' rfl rfl rfl hl

theorem State.Supplies.inBlock {s : State} {outs as bs : List Byte} {p : Phase} {cnt : Nat} {byte : BitVec 10} {tok : Byte}
    {buf : Memory} (h : s.Supplies (as ++ bs)) : (s.inBlock outs as p cnt byte tok buf).Supplies bs :=
  State.Supplies.congr rfl rfl h.right

end Sys2Proof.Machine
end

section
/-! The loops of the data blocks as runs of transactions: the token poll, the bytes of a payload or a checksum, the busy poll
(R203, R207, R208, R225 to R228). -/

namespace Sys2Proof.Machine

/-! ### A payload in the buffer -/

/-- Bytes written at consecutive indices. -/
def Memory.store : Memory → Nat → List Byte → Memory
  | m, _, [] => m
  | m, a, v :: vs => Memory.store (Memory.write m a v) (a + 1) vs

theorem Memory.read_store_of_lt {m : Memory} {a b : Nat} (vs : List Byte) (hb : b < a) :
    Memory.read (Memory.store m a vs) b = Memory.read m b := by
  induction vs generalizing m a with
  | nil => rfl
  | cons v vs ih => rw [Memory.store, ih (by omega), Memory.read_write_other m a b v (by omega)]

theorem Memory.read_store {m : Memory} {a : Nat} {vs : List Byte} (hwf : Memory.wf m = true) (ha : a + vs.length ≤ 512)
    (k : Nat) (hk : k < vs.length) : Memory.read (Memory.store m a vs) (a + k) = vs[k] := by
  induction vs generalizing m a k with
  | nil => simp at hk
  | cons v vs ih =>
    rw [List.length_cons] at ha
    rw [Memory.store]
    cases k with
    | zero =>
      exact (Memory.read_store_of_lt vs (Nat.lt_succ_self a)).trans (Memory.read_write_same m a v hwf)
    | succ k =>
      rw [List.length_cons] at hk
      have := ih (Memory.wf_write m a v (by omega) hwf) (by omega : a + 1 + vs.length ≤ 512) k (by omega)
      rw [← Nat.add_assoc, Nat.add_right_comm, this]
      rfl

/-- A stored payload of 512 bytes is the buffer (R51, R207). -/
theorem Memory.bytes_store {m : Memory} {payload : List Byte} (hwf : Memory.wf m = true) (hl : payload.length = 512) :
    Memory.bytes (Memory.store m 0 payload) = payload := by
  refine List.ext_getElem (by simp [Memory.bytes, hl]) fun k _ hk => ?_
  simpa [Memory.bytes] using Memory.read_store hwf (by omega : 0 + payload.length ≤ 512) k hk

/-! ### The bytes of a payload or a checksum -/

/-- The byte that the phase's exchange sends where `BYTE` is `n`. -/
def State.sendsAt (s : State) (n : Nat) : Byte := { s with byte := BitVec.ofNat 10 n }.sends

/-- The bytes that the phase's next `n` exchanges send, with `BYTE` counting. -/
def State.sendsFrom (s : State) (n : Nat) : List Byte := (List.range' s.byte.toNat n).map s.sendsAt

/-- The buffer after the answers to the phase's exchanges: only `R_Data` stores them (R207). -/
def State.bufAfterAll (s : State) (as : List Byte) : Memory :=
  if s.phase = .rData then Memory.store s.buf s.byte.toNat as else s.buf

theorem State.sendsAt_byte (s : State) : s.sendsAt s.byte.toNat = s.sends := by
  simp [State.sendsAt]

/-- The state after the phase's next exchanges were answered so, with the loop not yet left. -/
def State.afterBytes (s : State) (as : List Byte) : State :=
  { s.exchanged (s.sendsFrom as.length) as with
    byte := s.byte + BitVec.ofNat 10 as.length, buf := s.bufAfterAll as }

theorem State.afterBytes_singleton (s : State) (a : Byte) :
    s.afterBytes [a] = { s.exchanged [s.sends] [a] with byte := s.byte + 1#10, buf := s.bufAfter a } := by
  simp [State.afterBytes, State.sendsFrom, State.sendsAt_byte, State.bufAfterAll, State.bufAfter, Memory.store]

theorem State.afterBytes_singleton_byte {s : State} (a : Byte) (hb : s.byte.toNat < 1023) :
    (s.afterBytes [a]).byte.toNat = s.byte.toNat + 1 := by
  rw [State.afterBytes_singleton]
  show (s.byte + 1#10).toNat = _
  rw [BitVec.toNat_add, BitVec.toNat_ofNat]
  omega

/-- What a phase stores is not what it sends. -/
theorem State.afterBytes_sendsAt (s : State) (a : Byte) : (s.afterBytes [a]).sendsAt = s.sendsAt := by
  funext n
  rw [State.afterBytes_singleton]
  by_cases hd : s.phase = .rData
  · simp [State.sendsAt, State.sends, State.exchanged, hd]
  · simp [State.sendsAt, State.bufAfter, hd]; rfl

theorem State.sendsFrom_succ {s : State} (a : Byte) (n : Nat) (hb : s.byte.toNat < 1023) :
    s.sendsFrom (n + 1) = s.sends :: (s.afterBytes [a]).sendsFrom n := by
  rw [State.sendsFrom, State.sendsFrom, State.afterBytes_singleton_byte a hb, State.afterBytes_sendsAt,
    List.range'_succ, List.map_cons, State.sendsAt_byte]

theorem State.bufAfterAll_cons {s : State} (a : Byte) (as : List Byte) (hb : s.byte.toNat < 1023) :
    (s.afterBytes [a]).bufAfterAll as = s.bufAfterAll (a :: as) := by
  have hbyte := State.afterBytes_singleton_byte a hb
  by_cases hd : s.phase = .rData
  · have hd' : (s.afterBytes [a]).phase = .rData := hd
    simp only [State.bufAfterAll, if_pos hd, if_pos hd', hbyte, Memory.store]
    simp [State.afterBytes, State.bufAfterAll, Memory.store, hd]
  · have hd' : (s.afterBytes [a]).phase ≠ .rData := hd
    simp only [State.bufAfterAll, if_neg hd, if_neg hd']
    simp [State.afterBytes, State.bufAfterAll, hd]

theorem State.afterBytes_cons {s : State} (a : Byte) (as : List Byte) (hb : s.byte.toNat < 1023) :
    (s.afterBytes [a]).afterBytes as = s.afterBytes (a :: as) := by
  have hcount : s.byte + 1#10 + BitVec.ofNat 10 as.length = s.byte + BitVec.ofNat 10 (as.length + 1) := by
    rw [BitVec.add_assoc, Nat.add_comm as.length, BitVec.ofNat_add]
  have houts : s.sendsFrom 1 ++ (s.afterBytes [a]).sendsFrom as.length = s.sendsFrom (as.length + 1) := by
    rw [State.sendsFrom_succ a as.length hb, State.sendsFrom_succ a 0 hb]
    rfl
  have hexchanged := State.exchanged_append (s := s) (t := s.afterBytes [a]) (outs := s.sendsFrom 1)
    ((s.afterBytes [a]).sendsFrom as.length) as rfl rfl rfl (by simp [State.sendsFrom])
  rw [houts] at hexchanged
  rw [State.afterBytes, State.bufAfterAll_cons a as hb, hexchanged]
  simp only [State.afterBytes, List.length_cons, ← hcount]
  rfl

/-- A phase that counts the bytes of its loop and then goes on with `done`; only `R_Data` stores them (R207, R268). -/
structure Phase.Counts (p : Phase) (done : State → State) : Prop where
  byteCeiling_ne : p.byteCeiling ≠ 0#10
  afterAnswer_eq (i : Byte) (u : State) (hu : u.phase = p) :
    afterAnswer p i u = countByte p.byteCeiling done { u with buf := u.bufAfter i }

theorem Phase.byteCeiling_bounds {p : Phase} (h : p.byteCeiling ≠ 0#10) :
    p ≠ .idle ∧ p ≠ .iXportInit ∧ 0 < p.byteCeiling.toNat ∧ p.byteCeiling.toNat ≤ 512 := by
  cases p <;> simp_all [Phase.byteCeiling]

theorem rData_counts : Phase.rData.Counts (·.enterBytes .rCrc) :=
  ⟨by decide, fun i u hu => by rw [State.bufAfter, if_pos hu]; rfl⟩

theorem rCrc_counts : Phase.rCrc.Counts (·.succeed 0#16) :=
  ⟨by decide, fun i u hu => by rw [State.bufAfter, if_neg (by simp [hu])]; rfl⟩

theorem wData_counts : Phase.wData.Counts (·.enterBytes .wCrc) :=
  ⟨by decide, fun i u hu => by rw [State.bufAfter, if_neg (by simp [hu])]; rfl⟩

theorem wCrc_counts : Phase.wCrc.Counts fun t => { t with phase := .wResp } :=
  ⟨by decide, fun i u hu => by rw [State.bufAfter, if_neg (by simp [hu])]; rfl⟩

/-- The rest of the loop of a phase that counts bytes. -/
theorem transacts_bytes {p : Phase} {done : State → State} (hp : p.Counts done) {s : State} {as : List Byte}
    (hs : s.phase = p) (hb : s.byte.toNat + as.length = p.byteCeiling.toNat) (hpos : as ≠ []) (ha : s.Supplies as) :
    Transacts [p] as.length s (done (s.afterBytes as)) := by
  obtain ⟨hi, hx, -, hn⟩ := Phase.byteCeiling_bounds hp.byteCeiling_ne
  induction as generalizing s with
  | nil => exact absurd rfl hpos
  | cons a as ih =>
    rw [List.length_cons] at hb
    have hstep := sequence_of_answer (s := s) (hs ▸ hi) (hs ▸ hx) (fun _ => by omega) ha.head
    have hafter : afterAnswer s.phase a (s.exchanged [s.sends] [a]) =
        if s.byte + 1#10 = p.byteCeiling then done (s.afterBytes [a]) else s.afterBytes [a] := by
      rw [State.afterBytes_singleton, hs]
      exact hp.afterAnswer_eq a _ hs
    rw [hafter] at hstep
    have hbyte : (s.byte + 1#10).toNat = s.byte.toNat + 1 := State.afterBytes_singleton_byte a (by omega)
    cases as with
    | nil =>
      rw [if_pos (BitVec.eq_of_toNat_eq (hbyte.trans (by simpa using hb)))] at hstep
      exact Transacts.one hs hstep
    | cons b as =>
      rw [List.length_cons] at hb
      rw [if_neg (fun h => by rw [h] at hbyte; omega)] at hstep
      rw [← State.afterBytes_cons a _ (by omega)]
      refine .cons (List.mem_singleton.mpr hs) hstep (ih hs ?_ (List.cons_ne_nil b as) ?_)
      · rw [List.length_cons]
        exact (congrArg (· + (as.length + 1)) hbyte).trans (by omega)
      · exact State.Supplies.congr rfl rfl ha.tail

/-! ### The polls for a token and for the end of the card's busy state -/

/-- The state after polls that `CNT` counts were answered so, with the loop not yet left. -/
def State.afterPolls (s : State) (as : List Byte) : State :=
  { s.exchanged (idleBytes as.length) as with cnt := s.cnt + as.length }

theorem idleBytes_length (n : Nat) : (idleBytes n).length = n := List.length_replicate

theorem idleBytes_add (m n : Nat) : idleBytes (m + n) = idleBytes m ++ idleBytes n := by
  simp [idleBytes]

theorem State.afterPolls_append (s : State) (tok : Byte) (as bs : List Byte) :
    { s.afterPolls as with tok := tok }.afterPolls bs = { s.afterPolls (as ++ bs) with tok := tok } := by
  have hexchanged := State.exchanged_append (s := s) (t := { s.afterPolls as with tok := tok })
    (outs := idleBytes as.length) (as := as) (idleBytes bs.length) bs rfl rfl rfl (by simp [idleBytes])
  rw [← idleBytes_add] at hexchanged
  rw [State.afterPolls, hexchanged]
  simp only [State.afterPolls, List.length_append, ← Nat.add_assoc]
  rfl

theorem sequence_of_tokenPoll {s : State} {i : Byte} (hp : s.phase = .rToken) (ha : s.answerAt 0 = some i) :
    sequence s = .next (if i ≠ Config.idleByte ∨ s.cnt + 1 = Config.nToken then
      tokenDecision { s.afterPolls [i] with tok := i } else { s.afterPolls [i] with tok := i }) := by
  rw [sequence_of_answer (by simp [hp]) (by simp [hp]) (by simp [State.IndexFits, hp]) ha, State.sends, hp]
  rfl

theorem sequence_of_busyPoll {s : State} {i : Byte} (hp : s.phase = .wBusy) (ha : s.answerAt 0 = some i) :
    sequence s = .next (if i = Config.idleByte then (s.afterPolls [i]).succeed 0#16
      else if s.busyBound = some (s.cnt + 1) then (s.afterPolls [i]).raise (.io .busyTimeout)
      else s.afterPolls [i]) := by
  rw [sequence_of_answer (by simp [hp]) (by simp [hp]) (by simp [State.IndexFits, hp]) ha, State.sends, hp]
  rfl

/-- The token poll that ends with `tok`, and the acceptance test (R203, R204, R205). -/
theorem transacts_tokenPoll {s : State} {tok : Byte} {j : Nat} (hp : s.phase = .rToken)
    (hc : s.cnt + j < Config.nToken) (ht : tok ≠ Config.idleByte ∨ s.cnt + (j + 1) = Config.nToken)
    (ha : s.Supplies (idleBytes j ++ [tok])) :
    Transacts [.rToken] (j + 1) s (tokenDecision { s.afterPolls (idleBytes j ++ [tok]) with tok := tok }) := by
  induction j generalizing s with
  | zero =>
    have h := sequence_of_tokenPoll hp ha.head
    rw [if_pos ht] at h
    exact Transacts.one hp h
  | succ j ih =>
    have ha' : s.Supplies (Config.idleByte :: (idleBytes j ++ [tok])) := ha
    have h := sequence_of_tokenPoll hp ha'.head
    rw [if_neg (by simp; omega)] at h
    refine .cons (List.mem_singleton.mpr hp) h ?_
    have hr := ih (s := { s.afterPolls [Config.idleByte] with tok := Config.idleByte }) hp
      (by show s.cnt + 1 + j < _; omega) (ht.imp id fun e => by show s.cnt + 1 + (j + 1) = _; omega)
      (State.Supplies.congr rfl rfl ha'.tail)
    rw [State.afterPolls_append] at hr
    exact hr

/-- Busy polls that neither release the line nor reach the bound (R227, R228). -/
theorem transacts_busyPolls {s : State} {as : List Byte} (hp : s.phase = .wBusy) (hne : ∀ b ∈ as, b ≠ Config.idleByte)
    (hb : ∀ n, s.busyBound = some n → s.cnt + as.length < n) (ha : s.Supplies as) :
    Transacts [.wBusy] as.length s (s.afterPolls as) := by
  induction as generalizing s with
  | nil => exact .refl s
  | cons a as ih =>
    have h := sequence_of_busyPoll hp ha.head
    rw [if_neg (hne a List.mem_cons_self), if_neg fun e => by simpa using hb _ e] at h
    have hr := ih (s := s.afterPolls [a]) hp (fun b hm => hne b (List.mem_cons_of_mem a hm))
      (fun n hn => by
        have := hb n hn
        rw [List.length_cons] at this
        show s.cnt + 1 + as.length < n
        omega)
      (State.Supplies.congr rfl rfl ha.tail)
    have happend : (s.afterPolls [a]).afterPolls as = s.afterPolls (a :: as) := s.afterPolls_append s.tok [a] as
    exact .cons (List.mem_singleton.mpr hp) h (happend ▸ hr)

/-- The busy polls up to the first idle byte end the write (R227). -/
theorem transacts_release {s : State} {as : List Byte} (hp : s.phase = .wBusy) (hne : ∀ b ∈ as, b ≠ Config.idleByte)
    (hb : ∀ n, s.busyBound = some n → s.cnt + as.length < n) (ha : s.Supplies (as ++ [Config.idleByte])) :
    Transacts [.wBusy] (as.length + 1) s ((s.afterPolls (as ++ [Config.idleByte])).succeed 0#16) := by
  have hlast : (s.afterPolls as).answerAt 0 = some Config.idleByte :=
    State.Supplies.head (State.Supplies.congr rfl rfl ha.right)
  have h := sequence_of_busyPoll (s := s.afterPolls as) hp hlast
  have happend : (s.afterPolls as).afterPolls [Config.idleByte] = s.afterPolls (as ++ [Config.idleByte]) :=
    s.afterPolls_append s.tok as [Config.idleByte]
  rw [if_pos rfl, happend] at h
  exact ((transacts_busyPolls hp hne hb ha.left).append (Transacts.one hp h)).mono (by simp)

/-- A failed acceptance test ends the read with the failure and the event of R206. -/
theorem tokenDecision_of_rejected {s : State} (h : ¬(s.ack = 0x00#8 ∧ s.tok = 0xFE#8)) :
    tokenDecision s = (s.reportR1 (readFailure s.ack s.tok).2).raise (.io (readFailure s.ack s.tok).1) := by
  unfold tokenDecision readFailure
  split_ifs with hidle hack htok
  · rw [hidle]
  · rfl
  · rfl
  · exact absurd ⟨of_not_not hack, of_not_not htok⟩ h

theorem tokenDecision_of_accepted {s : State} (ha : s.ack = 0x00#8) (ht : s.tok = 0xFE#8) :
    tokenDecision s = s.enterBytes .rData := by
  rw [tokenDecision, if_neg (by rw [ht]; decide), if_neg (not_not.mpr ha), if_neg (not_not.mpr ht)]

/-! ### The phases of a data block -/

/-- The whole loop of a phase that counts bytes. -/
theorem transacts_allBytes {p : Phase} {done : State → State} (hp : p.Counts done) {s : State}
    {outs as outs' as' : List Byte} {cnt : Nat} {tok : Byte} {buf : Memory} (hl : outs.length = as.length)
    (hl' : as'.length = p.byteCeiling.toNat)
    (houts : (s.inBlock outs as p cnt 0#10 tok buf).sendsFrom p.byteCeiling.toNat = outs') (ha : s.Supplies (as ++ as')) :
    Transacts [p] p.byteCeiling.toNat (s.inBlock outs as p cnt 0#10 tok buf)
      (done (s.inBlock (outs ++ outs') (as ++ as') p cnt p.byteCeiling tok
        (if p = .rData then Memory.store buf 0 as' else buf))) := by
  obtain ⟨-, -, hpos, -⟩ := Phase.byteCeiling_bounds hp.byteCeiling_ne
  have h := transacts_bytes hp (s := s.inBlock outs as p cnt 0#10 tok buf) rfl (by rw [hl']; exact Nat.zero_add _)
    (List.ne_nil_of_length_pos (hl' ▸ hpos)) ha.inBlock
  have hbyte : 0#10 + BitVec.ofNat 10 p.byteCeiling.toNat = p.byteCeiling := by simp
  rw [State.afterBytes, hl', houts, State.inBlock_exchanged s outs' as' _ _ _ _ _ hl] at h
  simp only [State.inBlock, hbyte] at h
  exact h

theorem State.sendsFrom_of_sendsAt {s : State} {o : Byte} (h : ∀ n, s.sendsAt n = o) (n : Nat) :
    s.sendsFrom n = List.replicate n o := by
  simp [State.sendsFrom, funext h]

theorem State.sendsFrom_of_wData {s : State} (hp : s.phase = .wData) (hb : s.byte = 0#10) :
    s.sendsFrom 512 = Memory.bytes s.buf := by
  have hsends : ∀ k, k < 512 → s.sendsAt k = Memory.read s.buf k := by
    intro k hk
    have hk' : (BitVec.ofNat 10 k).toNat = k := by rw [BitVec.toNat_ofNat]; omega
    simp only [State.sendsAt, State.sends, hp, hk']
  rw [State.sendsFrom, hb, Memory.bytes, List.range_eq_range']
  exact List.map_congr_left fun k hk => hsends k (by simpa using hk)

section
variable {s : State} {outs as : List Byte} {cnt : Nat} {tok : Byte} {buf : Memory} (hl : outs.length = as.length)
include hl

/-- The payload of a read (R207). -/
theorem transacts_readPayload {payload : List Byte} (hp : payload.length = 512) (ha : s.Supplies (as ++ payload)) :
    Transacts [.rData] 512 (s.inBlock outs as .rData cnt 0#10 tok buf)
      (s.inBlock (outs ++ idleBytes 512) (as ++ payload) .rCrc cnt 0#10 tok (Memory.store buf 0 payload)) :=
  transacts_allBytes rData_counts hl hp (State.sendsFrom_of_sendsAt (fun _ => rfl) 512) ha

/-- The checksum bytes of a read, and its end (R208). -/
theorem transacts_readChecksum {sums : List Byte} (hs : sums.length = 2) (ha : s.Supplies (as ++ sums)) :
    Transacts [.rCrc] 2 (s.inBlock outs as .rCrc cnt 0#10 tok buf)
      ((s.inBlock (outs ++ idleBytes 2) (as ++ sums) .rCrc cnt 2#10 tok buf).succeed 0#16) :=
  transacts_allBytes rCrc_counts hl hs (State.sendsFrom_of_sendsAt (fun _ => rfl) 2) ha

/-- The payload of a write (R225). -/
theorem transacts_writePayload {ignored : List Byte} (hi : ignored.length = 512) (ha : s.Supplies (as ++ ignored)) :
    Transacts [.wData] 512 (s.inBlock outs as .wData cnt 0#10 tok buf)
      (s.inBlock (outs ++ Memory.bytes buf) (as ++ ignored) .wCrc cnt 0#10 tok buf) :=
  transacts_allBytes wData_counts hl hi (State.sendsFrom_of_wData rfl rfl) ha

/-- The filler checksum bytes of a write (R226). -/
theorem transacts_writeChecksum {ignored : List Byte} (hi : ignored.length = 2) (ha : s.Supplies (as ++ ignored)) :
    Transacts [.wCrc] 2 (s.inBlock outs as .wCrc cnt 0#10 tok buf)
      (s.inBlock (outs ++ [0xFF#8, 0xFF#8]) (as ++ ignored) .wResp cnt 2#10 tok buf) :=
  transacts_allBytes wCrc_counts hl hi (State.sendsFrom_of_sendsAt (fun _ => rfl) 2) ha

/-- The exchange whose answer a write discards before the busy poll (R227). -/
theorem transacts_writeResponse {byte : BitVec 10} {ignored : Byte} (ha : s.Supplies (as ++ [ignored])) :
    Transacts [.wResp] 1 (s.inBlock outs as .wResp cnt byte tok buf)
      (s.inBlock (outs ++ [0xFF#8]) (as ++ [ignored]) .wBusy 0 byte tok buf) := by
  have h := sequence_of_answer (s := s.inBlock outs as .wResp cnt byte tok buf) (by simp [State.inBlock])
    (by simp [State.inBlock]) (by simp [State.IndexFits, State.inBlock]) ha.inBlock.head
  rw [State.inBlock_exchanged _ _ _ _ _ _ _ _ hl] at h
  exact Transacts.one rfl h

end

/-- The data start token of a write (R225). -/
theorem transacts_writeToken {s : State} {ignored : Byte} (hp : s.phase = .wToken) (ha : s.answerAt 0 = some ignored) :
    Transacts [.wToken] 1 s (s.inBlock [0xFE#8] [ignored] .wData s.cnt 0#10 s.tok s.buf) := by
  have h := sequence_of_answer (by simp [hp]) (by simp [hp]) (by simp [State.IndexFits, hp]) ha
  rw [State.sends, hp] at h
  exact Transacts.one hp h

end Sys2Proof.Machine
end

section
/-! RDBLOCK and WRBLOCK (R96, R97): the transactions of a data block, phase after phase. -/

namespace Sys2Proof.Machine

theorem State.reportR1_eq (s : State) (b : Byte) :
    s.reportR1 b = { s with diag := if s.sink then .r1Class (classR1 b) b :: s.diag else s.diag } := by
  unfold State.reportR1 State.report
  split_ifs <;> rfl

/-! ### RDBLOCK -/

/-- A whole token poll, and the acceptance test (R203 to R206). -/
theorem transacts_tokenPolled {s : State} {tokens : List Byte} {tok : Byte} (hp : s.phase = .rToken) (hc : s.cnt = 0)
    (ht : TokenPolled tokens tok) (ha : s.Supplies tokens) :
    Transacts [.rToken] tokens.length s (tokenDecision
      (s.inBlock (idleBytes tokens.length) tokens s.phase tokens.length s.byte tok s.buf)) := by
  obtain ⟨j, hj, rfl, hlast⟩ := ht
  have hl : (idleBytes j ++ [tok]).length = j + 1 := by simp [idleBytes_length]
  have h := transacts_tokenPoll hp (by rwa [hc, Nat.zero_add]) (by rwa [hc, Nat.zero_add]) ha
  rw [State.afterPolls, hc, Nat.zero_add, hl] at h
  rw [hl]
  exact h

/-- The data block of a read: the token poll, and after a token behind acknowledgment `0x00` the payload and the checksum
bytes, to the end of the operation (R203 to R208). -/
theorem transacts_readBlock {s : State} {tokens payload sums : List Byte} (hp : s.phase = .rToken) (hc : s.cnt = 0)
    (hack : s.ack = 0x00#8) (ht : TokenPolled tokens 0xFE#8) (hpayload : payload.length = 512) (hsums : sums.length = 2)
    (ha : s.Supplies (tokens ++ payload ++ sums)) :
    Transacts [.rToken, .rData, .rCrc] (tokens.length + 512 + 2) s
      ((s.inBlock (idleBytes (tokens.length + 512 + 2)) (tokens ++ payload ++ sums) .rCrc tokens.length 2#10 0xFE#8
        (Memory.store s.buf 0 payload)).succeed 0#16) := by
  have htoken := transacts_tokenPolled hp hc ht ha.left.left
  rw [tokenDecision_of_accepted (s := s.inBlock _ _ _ _ _ 0xFE#8 _) hack rfl] at htoken
  have hdata := transacts_readPayload (outs := idleBytes tokens.length) (cnt := tokens.length) (tok := 0xFE#8)
    (buf := s.buf) (idleBytes_length _) hpayload ha.left
  have hcrc := transacts_readChecksum (outs := idleBytes (tokens.length + 512)) (cnt := tokens.length) (tok := 0xFE#8)
    (buf := Memory.store s.buf 0 payload) (by rw [List.length_append, hpayload, idleBytes_length]) hsums ha
  rw [← idleBytes_add] at hdata hcrc
  exact (htoken.append hdata).append hcrc

/-- A failed acceptance test: the token poll is all of the data block, and the operation ends with one event (R206). -/
theorem transacts_rejectedRead {s : State} {tokens : List Byte} {tok : Byte} (hp : s.phase = .rToken) (hc : s.cnt = 0)
    (ht : TokenPolled tokens tok) (hreject : ¬(s.ack = 0x00#8 ∧ tok = 0xFE#8)) (ha : s.Supplies tokens) :
    Transacts [.rToken] tokens.length s
      (((s.inBlock (idleBytes tokens.length) tokens s.phase tokens.length s.byte tok s.buf).reportR1
        (readFailure s.ack tok).2).raise (.io (readFailure s.ack tok).1)) := by
  have h := transacts_tokenPolled hp hc ht ha
  rwa [tokenDecision_of_rejected (s := s.inBlock _ _ _ _ _ _ _) hreject] at h

theorem TokenPolled.length_pos {tokens : List Byte} {tok : Byte} (h : TokenPolled tokens tok) : 0 < tokens.length := by
  obtain ⟨j, -, rfl, -⟩ := h
  simp

theorem TokenPolled.length_le {tokens : List Byte} {tok : Byte} (h : TokenPolled tokens tok) : tokens.length ≤ 65535 := by
  obtain ⟨j, hj, rfl, -⟩ := h
  simpa [idleBytes_length] using Nat.succ_le_of_lt hj

theorem exec_rdblock_of_not {s : State} (h : ¬(s.busy = true ∧ s.phase = .rToken)) : exec .rdblock s = .next s := if_neg h

/-- RDBLOCK makes the transactions that end the operation, when they are no more than the longest data block (R96). -/
theorem exec_rdblock_of_transacts {s t : State} {ps : List Phase} {n : Nat} (hb : s.busy = true) (hp : s.phase = .rToken)
    (h : Transacts ps n s t) (hidle : .idle ∉ ps) (hpos : 0 < n) (hle : n ≤ 65535 + 512 + 2) (ht : t.phase = .idle) :
    exec .rdblock s = .next t := by
  obtain ⟨k, hk⟩ := Nat.exists_eq_add_of_le hle
  have hexec : exec .rdblock s = runUntil .idle (65535 + 512 + 2) s := if_pos ⟨hb, hp⟩
  rw [hexec, hk]
  exact h.runUntil hidle hpos ht k

/-- Settles O38: the row makes the whole data block where the acceptance test passes, its token poll where it fails, and nothing
anywhere else. -/
theorem rdblockDeliversThePayload : Obligations.RdblockDeliversThePayload := by
  refine ⟨?_, ?_, fun s h => exec_rdblock_of_not h⟩
  · intro s payload m c1 c2 hb hp hc hack hwf hm hpayload ha
    have ht : TokenPolled (idleBytes m ++ [0xFE#8]) 0xFE#8 := ⟨m, hm, rfl, .inl (by decide)⟩
    have hl : (idleBytes m ++ [0xFE#8]).length = m + 1 := by simp [idleBytes_length]
    have hblock := transacts_readBlock hp hc hack ht hpayload rfl ha
    refine ⟨_, exec_rdblock_of_transacts hb hp hblock (by decide) (by omega) (by omega) rfl,
      Memory.bytes_store hwf hpayload, ?_⟩
    have hn : (idleBytes m ++ [0xFE#8] ++ payload ++ [c1, c2]).length = m + 1 + 514 := by
      rw [List.length_append, List.length_append, hl, hpayload]
      rfl
    rw [State.inBlock_eq_skip, hn, hl]
    rfl
  · intro s tokens tok hb hp hc ht hreject ha
    have hle := ht.length_le
    rw [exec_rdblock_of_transacts hb hp (transacts_rejectedRead hp hc ht hreject ha) (by decide) ht.length_pos (by omega) rfl,
      State.reportR1_eq, s.skip_eq tokens.length]
    rfl

/-! ### WRBLOCK -/

/-- The 516 answers to a write's data block, as its phases take them. -/
theorem exists_writeBlock_parts {l : List Byte} (h : l.length = 516) : ∃ (a : Byte) (p : List Byte) (c d e : Byte),
    l = [a] ++ p ++ [c, d] ++ [e] ∧ p.length = 512 := by
  obtain _ | ⟨a, l⟩ := l
  · simp at h
  rw [List.length_cons] at h
  obtain ⟨c, d, e, htail⟩ : ∃ c d e, l.drop 512 = [c, d, e] := by
    rw [← List.length_eq_three, List.length_drop]
    omega
  refine ⟨a, l.take 512, c, d, e, ?_, by rw [List.length_take]; omega⟩
  calc a :: l = [a] ++ (l.take 512 ++ l.drop 512) := by rw [List.take_append_drop]; rfl
    _ = [a] ++ l.take 512 ++ [c, d] ++ [e] := by rw [htail]; simp

/-- The data block of a write up to the busy poll (R225 to R227). -/
theorem transacts_writeBlock {s : State} {ignored : List Byte} (hp : s.phase = .wToken) (hl : ignored.length = 516)
    (ha : s.Supplies ignored) :
    Transacts [.wToken, .wData, .wCrc, .wResp] 516 s
      (s.inBlock ([0xFE#8] ++ Memory.bytes s.buf ++ [0xFF#8, 0xFF#8, 0xFF#8]) ignored .wBusy 0 2#10 s.tok s.buf) := by
  obtain ⟨a, p, c, d, e, rfl, hpl⟩ := exists_writeBlock_parts hl
  have hbytes : (Memory.bytes s.buf).length = 512 := by simp [Memory.bytes]
  have htoken := transacts_writeToken hp ha.left.left.left.head
  have hdata := transacts_writePayload (outs := [0xFE#8]) (as := [a]) (cnt := s.cnt) (tok := s.tok) (buf := s.buf) rfl hpl
    ha.left.left
  have hcrc := transacts_writeChecksum (outs := [0xFE#8] ++ Memory.bytes s.buf) (cnt := s.cnt) (tok := s.tok) (buf := s.buf)
    (by rw [List.length_append, List.length_append, hbytes, hpl]; rfl) rfl ha.left
  have hresp := transacts_writeResponse (outs := [0xFE#8] ++ Memory.bytes s.buf ++ [0xFF#8, 0xFF#8]) (cnt := s.cnt)
    (byte := 2#10) (tok := s.tok) (buf := s.buf) (by simp [hbytes, hpl]) ha
  have h := ((htoken.append hdata).append hcrc).append hresp
  rw [List.append_assoc _ [0xFF#8, 0xFF#8] [0xFF#8]] at h
  exact h

/-- The busy polls after the data block of a write, up to the first idle byte, and the end of the write (R227). -/
theorem transacts_writeRelease {s : State} {outs as busy : List Byte} {byte : BitVec 10} {tok : Byte} {buf : Memory}
    (hl : outs.length = as.length) (hne : ∀ b ∈ busy, b ≠ 0xFF#8) (hbound : ∀ n, s.busyBound = some n → busy.length < n)
    (ha : s.Supplies (as ++ (busy ++ [0xFF#8]))) :
    Transacts [.wBusy] (busy.length + 1) (s.inBlock outs as .wBusy 0 byte tok buf)
      ((s.inBlock (outs ++ idleBytes (busy.length + 1)) (as ++ (busy ++ [0xFF#8])) .wBusy (busy.length + 1) byte tok
        buf).succeed 0#16) := by
  have h := transacts_release (s := s.inBlock outs as .wBusy 0 byte tok buf) rfl hne
    (fun n hn => (Nat.zero_add busy.length).symm ▸ hbound n hn) ha.inBlock
  have hn : (busy ++ [Config.idleByte]).length = busy.length + 1 := by simp
  rw [State.afterPolls, State.inBlock_exchanged _ _ _ _ _ _ _ _ hl, hn] at h
  simp only [State.inBlock, Nat.zero_add] at h
  exact h

theorem exec_wrblock_of_not {s : State} (h : ¬(s.busy = true ∧ s.phase = .wToken)) : exec .wrblock s = .next s := if_neg h

/-- Settles O39: the row makes the data block up to the busy poll, and the sequencer's steps then poll until the line is
released. -/
theorem wrblockSendsTheBuffer : Obligations.WrblockSendsTheBuffer := by
  refine ⟨?_, fun s h => exec_wrblock_of_not h⟩
  intro s ignored busy hb hp hw hl hne hbound ha
  have hexec : exec .wrblock s = runUntil .wBusy (516 + 0) s := if_pos ⟨hb, hp⟩
  have hblock := (transacts_writeBlock hp hl ha.left).runUntil (last := .wBusy) (by decide) (by decide) rfl 0
  have houts : ([0xFE#8] ++ Memory.bytes s.buf ++ [0xFF#8, 0xFF#8, 0xFF#8]).length = ignored.length := by
    simp [Memory.bytes, hl]
  have hrelease := transacts_writeRelease (byte := 2#10) (tok := s.tok) (buf := s.buf) houts hne hbound ha
  have hn : (ignored ++ (busy ++ [0xFF#8])).length = 516 + (busy.length + 1) := by simp [hl]
  refine ⟨_, hexec.trans hblock, ?_, ?_⟩
  · rw [State.inBlock_eq_skip, hl, s.skip_eq 516]
  · convert hrelease.runs (by decide) hb hw using 1
    rw [State.inBlock_eq_skip, hn, s.skip_eq]
    rfl

end Sys2Proof.Machine
end

section
/-! The decoder reads what the encoder writes (R58, R80 to R103; log entry 7): a round trip for each format, then for each row of
the opcode table at its port. -/

namespace Sys2Proof.Machine

/-! ### Words and their bytes -/

theorem half_high_low (w : Half) : half w.high w.low = w := by
  have h : half w.high w.low = w.extractLsb' 0 16 := BitVec.extractLsb'_append_extractLsb'_eq_extractLsb' rfl
  rw [h, BitVec.extractLsb'_eq_self]

theorem word32_addrBytes (a : Addr) :
    word32 (a.extractLsb' 24 8) (a.extractLsb' 16 8) (a.extractLsb' 8 8) (a.extractLsb' 0 8) = a := by
  have h3 : a.extractLsb' 24 8 ++ a.extractLsb' 16 8 = a.extractLsb' 16 16 :=
    BitVec.extractLsb'_append_extractLsb'_eq_extractLsb' rfl
  have h2 : a.extractLsb' 16 16 ++ a.extractLsb' 8 8 = a.extractLsb' 8 24 :=
    BitVec.extractLsb'_append_extractLsb'_eq_extractLsb' rfl
  have h1 : a.extractLsb' 8 24 ++ a.extractLsb' 0 8 = a.extractLsb' 0 32 :=
    BitVec.extractLsb'_append_extractLsb'_eq_extractLsb' rfl
  rw [word32, h3, h2, h1, BitVec.extractLsb'_eq_self]

theorem Half.low_setWidth {w : Half} (h : w.toNat < 256) : w.low.setWidth 16 = w := by
  apply BitVec.eq_of_toNat_eq
  simp [Half.low]
  omega

/-! ### Command frames (R81, R82) -/

theorem commandByte_toNat (index : BitVec 6) : (Config.cmdFlag ||| index.setWidth 8).toNat = 0x40 + index.toNat := by
  have hi := index.isLt
  rw [BitVec.toNat_or, BitVec.toNat_setWidth, Nat.mod_eq_of_lt (by omega)]
  exact (Nat.two_pow_add_eq_or_of_lt hi 1).symm

/-- The command byte is the two bits `01`, then the index. -/
theorem commandByte_eq_append (index : BitVec 6) : Config.cmdFlag ||| index.setWidth 8 = 0b01#2 ++ index := by
  apply BitVec.eq_of_toNat_eq
  rw [commandByte_toNat, BitVec.toNat_append]
  exact Nat.two_pow_add_eq_or_of_lt index.isLt 1

theorem decodeFrame_frameBytes (index : BitVec 6) (hi lo : Half) :
    decodeFrame (frameBytes index hi lo) = .ok ⟨index, hi, lo⟩ := by
  simp only [frameBytes, decodeFrame, commandByte_eq_append, BitVec.extractLsb'_append_eq_left,
    BitVec.extractLsb'_append_eq_right, half_high_low]
  rfl

/-! ### Sector addresses (R86) -/

theorem offsetHi_append_offsetLo (a : Addr) : offsetHi a ++ offsetLo a = byteOffset a := by
  have h : offsetHi a ++ offsetLo a = (byteOffset a).extractLsb' 0 32 :=
    BitVec.extractLsb'_append_extractLsb'_eq_extractLsb' rfl
  rw [h, BitVec.extractLsb'_eq_self]

theorem sectorOf_offset {a : Addr} (h : a.toNat < 2 ^ 23) : sectorOf (offsetHi a) (offsetLo a) = a := by
  apply BitVec.eq_of_toNat_eq
  rw [sectorOf, offsetHi_append_offsetLo, BitVec.toNat_ushiftRight, byteOffset_toNat, Nat.shiftRight_eq_div_pow]
  omega

theorem offsetLo_lowBits (a : Addr) : (offsetLo a).setWidth 9 = 0#9 := by
  rw [offsetLo, BitVec.setWidth_eq_extractLsb' (by decide), BitVec.extractLsb'_extractLsb'_of_le (by decide)]
  exact byteOffset_lowBits a

/-! ### Request words and result words (R98, R100) -/

theorem decodeHostReq_hostReqBytes (op : BitVec 3) (a : Addr) : decodeHostReq (hostReqBytes op a) = .ok (hostInstr op a) := by
  simp only [hostReqBytes, addrBytes, decodeHostReq, word32_addrBytes]
  obtain ⟨⟨n, hn⟩⟩ := op
  interval_cases n <;> rfl

/-! ### Arms of the classifiers, and labels (R101, R156, R158) -/

theorem decodeR1Arm_of_not_flag {b : Byte} (h : isR1Flag b = false) : decodeR1Arm b = .r1Unknown b := by
  simp only [isR1Flag, Bool.or_eq_false_iff, decide_eq_false_iff_not, ← BitVec.toNat_inj] at h
  unfold decodeR1Arm
  split <;> simp_all

theorem decodeR2Arm_of_not_low {b : Byte} (h : isR2Low b = false) : decodeR2Arm 0#8 b = .r2Unknown b := by
  simp only [isR2Low, Bool.or_eq_false_iff, decide_eq_false_iff_not, ← BitVec.toNat_inj] at h
  unfold decodeR2Arm
  split <;> simp_all

theorem decodeR2Arm_of_high {hi : Byte} (lo : Byte) (h : hi ≠ 0#8) : decodeR2Arm hi lo = .r2DelegateR1 hi lo := by
  have hne : hi.toNat ≠ 0 := fun e => h (BitVec.eq_of_toNat_eq e)
  unfold decodeR2Arm
  split <;> simp_all

theorem R1Label.ofCode_code {l : R1Label} {raw : Byte} (h : l.fits raw = true) :
    R1Label.ofCode l.code.toNat raw = some l := by
  cases l with
  | unknown b => rw [of_decide_eq_true h]; rfl
  | _ => rfl

/-- The code of a delegated label is 16 more than the label's own (log entry 15). -/
theorem R2Label.ofCode_code_ofR1 (l : R1Label) (hi lo : Byte) :
    R2Label.ofCode (R2Label.ofR1 l).code.toNat hi lo = (R1Label.ofCode l.code.toNat hi).map .ofR1 := by
  cases l <;> rfl

theorem R2Label.ofCode_code {l : R2Label} {raw : Half} (h : l.fits raw = true) :
    R2Label.ofCode l.code.toNat raw.high raw.low = some l := by
  cases l with
  | unknown w =>
    rw [of_decide_eq_true h]
    exact congrArg (some ∘ R2Label.unknown) (half_high_low raw)
  | ofR1 l => rw [R2Label.ofCode_code_ofR1, R1Label.ofCode_code (raw := raw.high) h]; rfl
  | _ => rfl

/-! ### The round trip -/

theorem Selector.ofByte_code (p : Selector) : Selector.ofByte p.code = some p := by
  cases p <;> rfl

/-- A request is decoded at its instruction's own port. -/
theorem decode_encode_eq (i : Instr) : decode (encode i) = decodeAt i.selector i.body := by
  simp only [encode, decode, Selector.ofByte_code]

theorem decodeAt_command (index : BitVec 6) (hi lo : Half) :
    decodeAt .command (frameBytes index hi lo) = commandOf ⟨index, hi, lo⟩ := by
  simp only [decodeAt, decodeFrame_frameBytes]

/-- Settles O1: the port of an instruction reads its own bits back. -/
theorem encodedInstructionDecodesToItself : Obligations.EncodedInstructionDecodesToItself := by
  intro i hwf
  rw [decode_encode_eq]
  cases i with
  | sendCommand index hi lo => simp only [Instr.selector, Instr.body, decodeAt, decodeFrame_frameBytes]
  | cmd0 | cmd1 | cmd13 => exact decodeAt_command _ _ _
  | cmd17 a | cmd24 a =>
    have ha : a.toNat < 2 ^ 23 := of_decide_eq_true hwf
    refine (decodeAt_command _ _ _).trans ?_
    simp [commandOf, offsetLo_lowBits, sectorOf_offset ha]
  | controlNoop | initializeCard | readSector | writeSector | controlQuerySectorCount | hostReqReserved5 | hostReqReserved6
  | hostReqReserved7 =>
    simp only [Instr.selector, Instr.body, decodeAt, decodeHostReq_hostReqBytes]
    rfl
  | r1Unknown b =>
    have hb : isR1Flag b = false := by simpa [Instr.wellFormed] using hwf
    exact congrArg Except.ok (decodeR1Arm_of_not_flag hb)
  | r2DelegateR1 hi lo => exact congrArg Except.ok (decodeR2Arm_of_high lo (of_decide_eq_true hwf))
  | r2Unknown b =>
    have hb : isR2Low b = false := by simpa [Instr.wellFormed] using hwf
    exact congrArg Except.ok (decodeR2Arm_of_not_low hb)
  | resultOk info | resultNoResponse info | resultUnexpectedResetResponse info | resultCardNotReady info
  | resultStatusNotReady info | resultProtocolError info | resultFramingError info | resultBusyTimeout info =>
    simp [Instr.selector, Instr.body, decodeAt, resultBytes, decodeResult, half_high_low]
  | diagR1Class l raw => simp [Instr.selector, Instr.body, decodeAt, R1Label.ofCode_code hwf]
  | diagR2Class l raw => simp [Instr.selector, Instr.body, decodeAt, R2Label.ofCode_code hwf, half_high_low]
  | classifyR2 w => simp [Instr.selector, Instr.body, decodeAt, half_high_low]
  | _ => rfl

/-! ### Request words of the opcode table -/

/-- The number of a request word has the bytes of the word. -/
theorem bytesOf_requestWord (op : BitVec 3) (a : Addr) : bytesOf 5 (op ++ a).toNat = hostReqBytes op a := by
  have hop : (op ++ a).extractLsb' 32 8 = op.setWidth 8 := by
    rw [BitVec.extractLsb'_append_eq_of_le (by decide)]
    apply BitVec.eq_of_toNat_eq
    rw [BitVec.extractLsb'_toNat, BitVec.toNat_setWidth, Nat.sub_self, Nat.shiftRight_zero]
  have haddr : ∀ k, k + 8 ≤ 32 → (op ++ a).extractLsb' k 8 = a.extractLsb' k 8 := fun k hk =>
    BitVec.extractLsb'_append_eq_of_add_le hk
  rw [hostReqBytes, addrBytes, ← hop, ← haddr 24 (by decide), ← haddr 16 (by decide), ← haddr 8 (by decide),
    ← haddr 0 (by decide)]
  rfl

/-- Settles O4. -/
theorem requestWordDecodesByItsCode : Obligations.RequestWordDecodesByItsCode := by
  intro op a
  have htable : tableBytes 40 (op ++ a).toNat = Selector.hostReq.code :: hostReqBytes op a := by
    rw [← bytesOf_requestWord]
    rfl
  simp only [decodeTableWord, htable, decode, Selector.ofByte_code, decodeAt, decodeHostReq_hostReqBytes]

/-- Settles O14. -/
theorem commandByteIsFlagOrIndex : Obligations.CommandByteIsFlagOrIndex := by
  intro index hi lo
  have hindex := index.isLt
  have hbyte := commandByte_toNat index
  exact ⟨by omega, _, rfl, rfl, hbyte, by omega, by omega⟩

end Sys2Proof.Machine
end

section
/-! What the rows of single values do: the result words read back (R99, R100), delivered response values (R91), markers
(R102), codes that name no operation (R98). -/

namespace Sys2Proof.Machine

/-! ### Result words -/

/-- A well-formed row of RESULT is the end of an operation with a result whose word is the row's own bits (R100, R251). -/
theorem exists_result_of_row {i : Instr} (hwf : i.wellFormed = true) (hi : i.selector = .result) :
    ∃ r status info, (∀ s, exec i s = .next (s.endBy r)) ∧ r.word = some (status, info) ∧
      i.body = resultBytes status info := by
  cases i with
  | resultOk info => exact ⟨_, 0#4, info, exec_resultOk info, rfl, rfl⟩
  | resultNoResponse info =>
    exact ⟨_, 1#4, info, exec_resultNoResponse info, by rw [of_decide_eq_true hwf]; rfl, rfl⟩
  | resultUnexpectedResetResponse info =>
    obtain ⟨⟨hinfo, -⟩, -⟩ : (info.toNat < 256 ∧ info ≠ 0x0001#16) ∧ info ≠ 0x00FF#16 := by
      simpa [Instr.wellFormed] using hwf
    exact ⟨_, 2#4, info, exec_resultUnexpectedResetResponse info,
      congrArg (fun w => some (2#4, w)) (Half.low_setWidth hinfo), rfl⟩
  | resultCardNotReady info =>
    obtain ⟨hinfo, -⟩ : info.toNat < 256 ∧ info ≠ 0x0000#16 := by simpa [Instr.wellFormed] using hwf
    exact ⟨_, 3#4, info, exec_resultCardNotReady info, congrArg (fun w => some (3#4, w)) (Half.low_setWidth hinfo), rfl⟩
  | resultStatusNotReady info => exact ⟨_, 4#4, info, exec_resultStatusNotReady info, rfl, rfl⟩
  | resultProtocolError info =>
    exact ⟨_, 5#4, info, exec_resultProtocolError info,
      congrArg (fun w => some (5#4, w)) (Half.low_setWidth (of_decide_eq_true hwf)), rfl⟩
  | resultFramingError info =>
    exact ⟨_, 6#4, info, exec_resultFramingError info, by rw [of_decide_eq_true hwf]; rfl, rfl⟩
  | resultBusyTimeout info =>
    exact ⟨_, 7#4, info, exec_resultBusyTimeout info, by rw [of_decide_eq_true hwf]; rfl, rfl⟩
  | _ => exact absurd hi (by simp [Instr.selector])

/-- An operation that ends with a result holds it, and is over (R29). -/
theorem State.endBy_result_of_ne {s : State} {r : Result} (h : s.endBy r ≠ s) :
    (s.endBy r).result = r ∧ (s.endBy r).busy = false := by
  obtain he | ⟨v, rfl, -, he⟩ | ⟨f, rfl, -, he⟩ := State.endBy_cases s r
  · exact absurd he h
  · rw [he]
    exact ⟨rfl, rfl⟩
  · rw [he]
    exact ⟨rfl, rfl⟩

/-- Settles O23: a row that changes anything ends the operation with its own result, and with no operation in progress none
does. -/
theorem resultWordReadsBack : Obligations.ResultWordReadsBack := by
  intro i s hwf hi
  obtain ⟨r, status, info, hexec, hword, hbody⟩ := exists_result_of_row hwf hi
  rw [hexec s]
  refine ⟨fun t ht hne => ?_, fun hb => congrArg _ (s.endBy_of_idle r hb)⟩
  cases ht
  obtain ⟨hresult, hbusy⟩ := State.endBy_result_of_ne hne
  exact ⟨status, info, hresult.symm ▸ hword, hbody, hbusy⟩

/-! ### Response values, markers, and codes that name no operation -/

/-- Settles O18. -/
theorem r1ValuesAreDelivered : Obligations.R1ValuesAreDelivered :=
  fun _ => ⟨rfl, rfl⟩

theorem exec_idle_of_answer {s : State} {i : Byte} (h : s.answerAt 0 = some i) :
    exec .idle s = .next { s.exchanged [0xFF#8] [i] with returned := .byte i } := by
  rw [← State.consume_record_eq_exchanged]
  exact xchg_of_answer (k := fun i t => .next { t with returned := .byte i }) h

theorem exec_dataStartToken_of_answer {s : State} {i : Byte} (h : s.answerAt 0 = some i) :
    exec .dataStartToken s = .next (s.exchanged [0xFE#8] [i]) := by
  rw [← State.consume_record_eq_exchanged]
  exact xchg_of_answer h

/-- Settles O19: each row is one exchange, whose answer is the one supplied. -/
theorem markersAreOneExchange : Obligations.MarkersAreOneExchange := by
  intro s i ha
  rw [exec_idle_of_answer ha.head, exec_dataStartToken_of_answer ha.head, s.skip_eq 1]
  exact ⟨rfl, rfl⟩

/-- Settles O28. -/
theorem reservedCodesHaveNoEffect : Obligations.ReservedCodesHaveNoEffect :=
  fun _ _ => ⟨rfl, rfl, rfl⟩

end Sys2Proof.Machine
end

section
/-! The Command Framer (R120 to R127): one SEND_COMMAND appends the frame of its fields, and the frame of a sector command holds the
sector's address bits, nine places up (R85, R86). -/

namespace Sys2Proof.Machine

/-! ### The offset of a sector, bit by bit (R55, R86) -/

/-- A field that ends `m` bits inside a tail of zeros is the low bits before the tail, then `m` zeros. -/
theorem extractLsb'_append_zero {v : Nat} (x : BitVec v) (k m n : Nat) :
    (x ++ 0#(m + k)).extractLsb' k (n + m) = x.extractLsb' 0 n ++ 0#m := by
  ext i hi
  rw [BitVec.getElem_append]
  simp only [BitVec.getElem_extractLsb', BitVec.getLsbD_append, BitVec.getLsbD_zero, BitVec.getElem_zero]
  by_cases h : i < m
  · rw [if_pos (by omega), dif_pos h]
  · rw [if_neg (by omega), dif_neg h]
    congr 1
    omega

/-- The offset is the address moved nine places up; its top nine bits are lost (D8). -/
theorem byteOffset_eq_append (a : Addr) : byteOffset a = a.extractLsb' 0 23 ++ 0#9 := by
  apply BitVec.eq_of_toNat_eq
  rw [byteOffset_toNat, BitVec.toNat_append, BitVec.toNat_ofNat, Nat.zero_mod, Nat.or_zero, BitVec.extractLsb'_toNat,
    Nat.shiftLeft_eq]
  omega

theorem offsetHi_eq_extractLsb' (a : Addr) : offsetHi a = a.extractLsb' 7 16 := by
  rw [offsetHi, byteOffset_eq_append, BitVec.extractLsb'_append_eq_of_le (by decide),
    BitVec.extractLsb'_extractLsb'_of_le (by decide)]

theorem offsetLo_eq_append (a : Addr) : offsetLo a = a.extractLsb' 0 7 ++ 0#9 := by
  rw [offsetLo, byteOffset_eq_append]
  exact (extractLsb'_append_zero _ 0 9 7).trans (by rw [BitVec.extractLsb'_extractLsb'_of_le (by decide)])

/-! ### The bytes of a sector command's frame (R86) -/

theorem offsetHi_eq_append (a : Addr) : offsetHi a = a.extractLsb' 15 8 ++ a.extractLsb' 7 8 := by
  have h : a.extractLsb' 15 8 ++ a.extractLsb' 7 8 = a.extractLsb' 7 16 :=
    BitVec.extractLsb'_append_extractLsb'_eq_extractLsb' rfl
  rw [offsetHi_eq_extractLsb', h]

theorem offsetHi_high (a : Addr) : (offsetHi a).high = a.extractLsb' 15 8 := by
  rw [offsetHi_eq_append, Half.high, BitVec.extractLsb'_append_eq_left]

theorem offsetHi_low (a : Addr) : (offsetHi a).low = a.extractLsb' 7 8 := by
  rw [offsetHi_eq_append, Half.low, BitVec.extractLsb'_append_eq_right]

theorem offsetLo_high (a : Addr) : (offsetLo a).high = a.extractLsb' 0 7 ++ 0#1 := by
  rw [offsetLo_eq_append, Half.high]
  exact (extractLsb'_append_zero _ 8 1 7).trans (by rw [BitVec.extractLsb'_eq_self])

theorem offsetLo_low (a : Addr) : (offsetLo a).low = 0#8 := by
  rw [offsetLo_eq_append, Half.low, BitVec.extractLsb'_append_eq_of_add_le (by decide), BitVec.extractLsb'_zero]

theorem frameBytes_offset (index : BitVec 6) (a : Addr) :
    frameBytes index (offsetHi a) (offsetLo a) =
      [0xFF#8, Config.cmdFlag ||| index.setWidth 8, a.extractLsb' 15 8, a.extractLsb' 7 8, a.extractLsb' 0 7 ++ 0#1, 0#8,
        0x95#8, 0xFF#8] := by
  rw [frameBytes, offsetHi_high, offsetHi_low, offsetLo_high, offsetLo_low]

/-! ### The commands -/

/-- SEND_COMMAND sends the frame of its own fields. -/
theorem sendCommand_eq_afterFrame {s : State} {as : List Byte} (hlen : as.length = 8) (hs : s.Supplies as)
    (index : BitVec 6) (hi lo : Half) :
    sendCommand index hi lo s .next = .next (s.afterFrame index hi lo (frameBytes index hi lo) as) :=
  sendCommand_of_supplies index hi lo s as .next hlen hs

/-- A sector command sends its address bits. -/
theorem sendCommand_offset_eq_afterFrame {s : State} {as : List Byte} (hlen : as.length = 8) (hs : s.Supplies as)
    (index : BitVec 6) (a : Addr) :
    sendCommand index (offsetHi a) (offsetLo a) s .next =
      .next (s.afterFrame index (a.extractLsb' 7 16) (a.extractLsb' 0 7 ++ 0#9)
        [0xFF#8, Config.cmdFlag ||| index.setWidth 8, a.extractLsb' 15 8, a.extractLsb' 7 8, a.extractLsb' 0 7 ++ 0#1, 0#8,
          0x95#8, 0xFF#8] as) := by
  rw [sendCommand_eq_afterFrame hlen hs, frameBytes_offset, offsetHi_eq_extractLsb', offsetLo_eq_append]

/-- Settles O12. -/
theorem sendCommandEmitsTheFrame : Obligations.SendCommandEmitsTheFrame :=
  fun _ index hi lo _ hlen hs => sendCommand_eq_afterFrame hlen hs index hi lo

/-- Settles O13: each command is SEND_COMMAND with its own index, and with zero arguments or the sector's offset. -/
theorem fiveCommandsEmitTheirFrames : Obligations.FiveCommandsEmitTheirFrames :=
  fun _ _ hlen hs =>
    ⟨sendCommand_eq_afterFrame hlen hs 0#6 0#16 0#16, sendCommand_eq_afterFrame hlen hs 1#6 0#16 0#16,
      sendCommand_eq_afterFrame hlen hs 13#6 0#16 0#16, sendCommand_offset_eq_afterFrame hlen hs 17#6,
      sendCommand_offset_eq_afterFrame hlen hs 24#6⟩

end Sys2Proof.Machine
end

section
/-! The Response Decoder (R140, R141, R144): READ_R1 is the exchanges of its polls, and READ_R2 makes one exchange more. -/

namespace Sys2Proof.Machine

/-! ### READ_R1 -/

theorem Polled.length_pos {answers : List Byte} {r : Byte} (h : Polled answers r) : 0 < answers.length := by
  obtain ⟨j, -, rfl, -⟩ := h
  simp

/-- Settles O16: READ_R1 is its polls, and eight answers begin with those of one READ_R1, which makes at least one. -/
theorem readR1ReturnsTheFirstResponse : Obligations.ReadR1ReturnsTheFirstResponse := by
  refine ⟨fun s answers r hp hs => readR1_of_supplies answers r s _ hp hs, fun answers hlen => ?_⟩
  obtain ⟨n, r, hn, hp⟩ := polled_of_eight answers hlen
  have hpos : 0 < min n answers.length := List.length_take ▸ hp.length_pos
  exact ⟨n, r, by omega, hn, hp⟩

/-! ### READ_R2 -/

/-- The state after a READ_R1 that took these answers and returned `r`. -/
def State.afterReadR1 (s : State) (answers : List Byte) (r : Byte) : State :=
  { s.exchanged (idleBytes answers.length) answers with poll := BitVec.ofNat 4 answers.length, r1 := r }

theorem readR1_eq_afterReadR1 {s : State} {answers : List Byte} {r : Byte} (hp : Polled answers r)
    (hs : s.Supplies answers) (k : Byte → State → Out) : readR1 s k = k r (s.afterReadR1 answers r) := by
  rw [readR1_of_supplies answers r s k hp hs, s.skip_eq answers.length]
  rfl

theorem State.Supplies.afterReadR1 {s : State} {answers bs : List Byte} {r : Byte} (h : s.Supplies (answers ++ bs)) :
    (s.afterReadR1 answers r).Supplies bs :=
  State.Supplies.congr rfl rfl h.right

/-- One idle byte more after a READ_R1 lengthens its exchanges. -/
theorem State.afterReadR1_exchanged (s : State) (answers : List Byte) (high low : Byte) :
    (s.afterReadR1 answers high).exchanged [Config.idleByte] [low] =
      { s.exchanged (idleBytes (answers.length + 1)) (answers ++ [low]) with
        poll := BitVec.ofNat 4 answers.length, r1 := high } := by
  rw [idleBytes_add]
  exact State.exchanged_append [Config.idleByte] [low] rfl rfl rfl (idleBytes_length answers.length)

/-- The high byte shifted up and the low byte or-ed in stand one after the other (R94). -/
theorem composeR2_eq_append (high low : Byte) : composeR2 high low = high ++ low := by
  rw [composeR2, ← BitVec.setWidth_append_eq_shiftLeft_setWidth_or, BitVec.setWidth_eq]

/-- READ_R2 when the answers it takes are known: after READ_R1 the low byte is exchanged whatever the high byte is (R144). -/
theorem readR2_of_supplies {s : State} {answers : List Byte} {high low : Byte} (hp : Polled answers high)
    (hs : s.Supplies (answers ++ [low])) (k : Half → State → Out) :
    readR2 s k =
      k (high ++ low)
        { s.exchanged (idleBytes (answers.length + 1)) (answers ++ [low]) with
          poll := BitVec.ofNat 4 answers.length, r1 := high, r2 := high ++ low } := by
  rw [readR2, readR1_eq_afterReadR1 hp hs.left, xchg_of_answer hs.afterReadR1.head, State.consume_record_eq_exchanged,
    State.afterReadR1_exchanged, composeR2_eq_append]

/-- Settles O17: READ_R2 returns the word it wrote to `R2`, and its exchanges touch the transport and the trace only. -/
theorem readR2ComposesHighAndLow : Obligations.ReadR2ComposesHighAndLow := by
  intro s answers high low hp hs
  have hrun : exec .readR2 s = _ := readR2_of_supplies hp hs fun w t => .next { t with returned := .word w }
  rw [hrun, s.skip_eq (answers.length + 1), State.exchanged, List.length_append]
  rfl

end Sys2Proof.Machine
end

section
/-! The Error Classifier (R155 to R160): what its two functions say of a byte and of a word; each arm's own row is the
classifier on the value that reaches the arm. -/

namespace Sys2Proof.Machine

/-! ### CLASSIFY_R1 (R156, R157) -/

theorem classR1_of_mem_r1Arms : ∀ x ∈ r1Arms, classR1 x.2.1 = x.2.2 := by
  decide

theorem classR1_of_no_arm {b : Byte} (h : ∀ x ∈ r1Arms, b ≠ x.2.1) : classR1 b = .unknown b := by
  simp only [r1Arms, List.forall_mem_cons] at h
  obtain ⟨h01, h02, h04, h08, h10, h20, h40, -⟩ := h
  rw [classR1, if_neg h01, if_neg h02, if_neg h04, if_neg h08, if_neg h10, if_neg h20, if_neg h40]

theorem exec_of_mem_r1Arms (s : State) : ∀ x ∈ r1Arms, exec x.1 s = exec (.classifyR1 x.2.1) s := by
  simp only [r1Arms, List.forall_mem_cons]
  exact ⟨rfl, rfl, rfl, rfl, rfl, rfl, rfl, List.forall_mem_nil _⟩

theorem exec_r1Unknown (b : Byte) (s : State) : exec (.r1Unknown b) s = exec (.classifyR1 b) s :=
  rfl

theorem exec_classifyR1_of_class {b : Byte} {l : R1Label} (h : classR1 b = l) (s : State) :
    exec (.classifyR1 b) s = .next { s with returned := .r1Label l } :=
  h ▸ rfl

/-- Settles O20: each arm's row is CLASSIFY_R1 of its byte. -/
theorem classifyR1IsWholeByteEquality : Obligations.ClassifyR1IsWholeByteEquality := by
  refine fun s => ⟨fun x hx => ?_, fun b hb => ?_⟩
  · have hclass := exec_classifyR1_of_class (classR1_of_mem_r1Arms x hx) s
    exact ⟨(exec_of_mem_r1Arms s x hx).trans hclass, hclass⟩
  · have hclass := exec_classifyR1_of_class (classR1_of_no_arm hb) s
    exact ⟨hclass, (exec_r1Unknown b s).trans hclass⟩

/-! ### CLASSIFY_R2 (R158 to R160) -/

theorem Half.high_append (high low : Byte) : Half.high (high ++ low) = high :=
  BitVec.extractLsb'_append_eq_left

theorem classR2_of_mem_r2Arms : ∀ x ∈ r2Arms, classR2 x.2.1 = x.2.2 := by
  decide

/-- Outside the table the high byte decides (R158). -/
theorem classR2_of_no_arm {w : Half} (h : ∀ x ∈ r2Arms, w ≠ x.2.1) :
    classR2 w = if w.high ≠ 0x00#8 then .ofR1 (classR1 w.high) else .unknown w := by
  simp only [r2Arms, List.forall_mem_cons] at h
  obtain ⟨h00, h01, h02, h04, h08, h10, h20, h40, h80, -⟩ := h
  rw [classR2, classR2With, Config.r2Table, if_neg h00, if_neg h01, if_neg h02, if_neg h04, if_neg h08, if_neg h10,
    if_neg h20, if_neg h40, if_neg h80]

theorem exec_of_mem_r2Arms (s : State) : ∀ x ∈ r2Arms, exec x.1 s = exec (.classifyR2 x.2.1) s := by
  simp only [r2Arms, List.forall_mem_cons]
  exact ⟨rfl, rfl, rfl, rfl, rfl, rfl, rfl, rfl, rfl, List.forall_mem_nil _⟩

theorem exec_r2DelegateR1 (high low : Byte) (s : State) :
    exec (.r2DelegateR1 high low) s = exec (.classifyR2 (high ++ low)) s :=
  rfl

theorem exec_r2Unknown (low : Byte) (s : State) : exec (.r2Unknown low) s = exec (.classifyR2 (0#8 ++ low)) s :=
  rfl

theorem exec_classifyR2_of_class {w : Half} {l : R2Label} (h : classR2 w = l) (s : State) :
    exec (.classifyR2 w) s = .next { s with returned := .r2Label l } :=
  h ▸ rfl

/-- Settles O21: each arm's row is CLASSIFY_R2 of its word, and outside the table the high byte decides. -/
theorem classifyR2IsTableThenHighByte : Obligations.ClassifyR2IsTableThenHighByte := by
  refine fun s => ⟨fun x hx => ?_, fun high low hw => ?_⟩
  · have hclass := exec_classifyR2_of_class (classR2_of_mem_r2Arms x hx) s
    exact ⟨(exec_of_mem_r2Arms s x hx).trans hclass, hclass⟩
  · have hclass := classR2_of_no_arm hw
    rw [Half.high_append] at hclass
    refine ⟨fun hhigh => ?_, fun hhigh => ?_⟩
    · rw [if_pos hhigh] at hclass
      rw [exec_r2DelegateR1, exec_classifyR2_of_class hclass]
      exact ⟨rfl, rfl⟩
    · rw [if_neg (not_not_intro hhigh)] at hclass
      subst hhigh
      rw [exec_r2Unknown, exec_classifyR2_of_class hclass]
      exact ⟨rfl, rfl⟩

end Sys2Proof.Machine
end

section
/-! Diagnostic events on their own (R101, R162; log entry 30). -/

namespace Sys2Proof.Machine

theorem State.report_eq (s : State) (e : DiagEvent) :
    s.report e = { s with diag := if s.sink then e :: s.diag else s.diag } := by
  unfold State.report
  split_ifs <;> rfl

/-- Settles O24: a row's whole effect is the delivery of its event. -/
theorem diagnosticEventsOnlyReachTheSink : Obligations.DiagnosticEventsOnlyReachTheSink :=
  fun s l1 b l2 w =>
    ⟨congrArg Host.Outcome.next (s.report_eq (.r1Class l1 b)), congrArg Host.Outcome.next (s.report_eq (.r2Class l2 w))⟩

end Sys2Proof.Machine
end

section
/-! The retry loops of INITIALIZE (R178 to R183): one attempt is a frame and a READ_R1, and a loop is its attempts, each but the
last followed by the next. -/

namespace Sys2Proof.Machine

/-! ### Answers used up -/

/-- `n` answers have been used up, their exchanges are in the trace, and nothing else has changed (R33, R62). -/
def State.answered (s : State) (n : Nat) (es : List Transaction) : State :=
  { s with xport := (s.skip n).xport, draws := (s.skip n).draws, trace := es.reverse ++ s.trace }

/-- Answers used up after answers, whatever registers have changed between them. -/
theorem State.answered_answered {s t : State} {m : Nat} {es : List Transaction} (n : Nat) (fs : List Transaction)
    (hx : t.xport = (s.skip m).xport) (hd : t.draws = (s.skip m).draws) (ht : t.trace = es.reverse ++ s.trace) :
    t.answered n fs =
      { t with
        xport := (s.skip (m + n)).xport, draws := (s.skip (m + n)).draws, trace := (es ++ fs).reverse ++ s.trace } := by
  have hskip := State.skip_congr n hx hd
  rw [State.skip_add] at hskip
  simp [State.answered, hskip, ht]

/-! ### One attempt -/

/-- A phase is about to send the frame of a command with zero arguments, and the host waits (R120, R267). -/
structure State.AtCommand (s : State) (p : Phase) (index : BitVec 6) : Prop where
  busy : s.busy = true
  hostWaits : s.HostWaits
  phase : s.phase = p
  byte : s.byte = 0#10
  idxCmd : s.idxCmd = index
  argHi : s.argHi = 0#16
  argLo : s.argLo = 0#16

/-- The latches of the command stay while its exchanges are made (R120). -/
theorem State.AtCommand.answered_latched {s : State} {p : Phase} {index : BitVec 6} (hs : s.AtCommand p index) (n : Nat)
    (es : List Transaction) :
    { s.answered n es with idxCmd := index, argHi := 0#16, argLo := 0#16 } = s.answered n es := by
  ext1 <;> simp [State.answered, hs.idxCmd, hs.argHi, hs.argLo]

/-- The state after an attempt whose response was polled for in phase `p`, before what follows it. -/
def State.attempted (s : State) (p : Phase) (index : BitVec 6) (a : Attempt) : State :=
  { s.answered a.answers.length (a.exchanges index) with
    phase := p, byte := 8#10, poll := BitVec.ofNat 4 a.polls.length, r1 := a.response }

/-- The state after the frame of an attempt, about to poll for the response. -/
def State.polling (s : State) (p : Phase) (index : BitVec 6) (a : Attempt) : State :=
  { s.answered 8 (exchanges (frameBytes index 0#16 0#16) a.frame) with byte := 8#10, phase := p, poll := 0#4 }

theorem Attempt.exchanges_eq (index : BitVec 6) {a : Attempt} (h : a.Valid) :
    a.exchanges index = Machine.exchanges (frameBytes index 0#16 0#16) a.frame
      ++ Machine.exchanges (idleBytes a.polls.length) a.polls :=
  exchanges_append _ _ h.1.symm

/-- A phase that sends a frame and one that polls for its response make one attempt (R178, R181, R184). -/
theorem runs_attempt {p q : Phase} {index : BitVec 6} {f : Byte → State → State}
    (hp : ∀ u : State, u.phase = p → sequence u = frameStep u (fun t => .next (t.enterPoll q)) .next)
    (hq : ∀ u : State, u.phase = q → sequence u = pollStep u (fun r t => .next (f r t)) .next) {s : State} {a : Attempt}
    (hs : s.AtCommand p index) (ha : a.Valid) (hsup : s.Supplies a.answers) :
    Runs a.answers.length s (f a.response (s.attempted q index a)) := by
  have hl : a.frame.length = 8 := ha.1
  have hn : a.answers.length = 8 + a.polls.length := by rw [Attempt.answers, List.length_append, hl]
  have hframe : Runs 8 s (s.polling q index a) := by
    have h := runs_frame p (·.enterPoll q) hp s a.frame hs.busy hs.phase hs.hostWaits hs.byte hl hsup.left
    rwa [hs.idxCmd, hs.argHi, hs.argLo, s.skip_eq 8] at h
  have hrest : (s.skip 8).Supplies a.polls := hl ▸ hsup.right
  have hpoll := runs_poll q f hq (s.polling q index a) a.polls a.response hs.busy rfl hs.hostWaits rfl ha.2
    (State.Supplies.congr rfl rfl hrest)
  rw [State.skip_eq] at hpoll
  rw [hn, State.attempted, Attempt.exchanges_eq index ha, hn]
  have hafter := State.answered_answered (s := s) (t := s.polling q index a) a.polls.length
    (exchanges (idleBytes a.polls.length) a.polls) rfl rfl rfl
  convert hframe.trans hpoll using 2
  exact congrArg (fun u : State => { u with poll := BitVec.ofNat 4 a.polls.length, r1 := a.response }) hafter.symm

/-! ### A retry loop -/

/-- One more attempt is counted, reported where the stage reports it, and another one follows (R178, R181, R182). -/
def State.retry (s : State) (command : Phase) (index : BitVec 6) (reports : Bool) (r : Byte) : State :=
  { s with
    cnt := s.cnt + 1
    diag := if reports && s.sink then .r1Class (classR1 r) r :: s.diag else s.diag }.enterFrame command index 0#16 0#16

/-- A retry loop of INITIALIZE: attempts of one command until it is answered `ends`, `ceiling` of them at most. -/
structure Stage where
  /-- the phase that sends the command -/
  command : Phase
  /-- the phase that polls for the response -/
  response : Phase
  index : BitVec 6
  ends : Byte
  ceiling : Nat
  /-- whether an attempt that another one follows is reported -/
  reports : Bool
  /-- what follows an attempt with a response -/
  decision : Byte → State → State
  sequence_command (u : State) (hu : u.phase = command) :
    sequence u = frameStep u (fun t => .next (t.enterPoll response)) .next
  sequence_response (u : State) (hu : u.phase = response) :
    sequence u = pollStep u (fun r t => .next (decision r t)) .next
  /-- another attempt follows -/
  decision_retry (r : Byte) (u : State) (hr : r ≠ ends) (hc : u.cnt + 1 ≠ ceiling) :
    decision r u = u.retry command index reports r

/-- Stage 1 of INITIALIZE (R178 to R180). -/
def resetStage : Stage where
  command := .iResetCmd
  response := .iResetResp
  index := Config.idxGoIdle
  ends := Config.r1InIdle
  ceiling := Config.nReset
  reports := false
  decision := resetAttempt
  sequence_command u hu := by simp only [sequence, hu]; rfl
  sequence_response u hu := by simp only [sequence, hu]; rfl
  decision_retry r u hr hc := by
    simp only [resetAttempt, if_neg hr, if_neg hc]
    rfl

/-- Stage 2 of INITIALIZE (R181 to R183). -/
def opCondStage : Stage where
  command := .iOpCondCmd
  response := .iOpCondResp
  index := Config.idxOpCond
  ends := Config.r1Ready
  ceiling := Config.nOpCond
  reports := true
  decision := opCondAttempt
  sequence_command u hu := by simp only [sequence, hu]; rfl
  sequence_response u hu := by simp only [sequence, hu]; rfl
  decision_retry r u hr hc := by
    simp only [opCondAttempt, if_neg hr, if_neg hc, State.reportR1_eq]
    rfl

/-- The state after attempts of a stage and a last one, before what follows the last one. -/
def State.tried (s : State) (g : Stage) (as : List Attempt) (a : Attempt) : State :=
  { s.answered (attemptAnswers (as ++ [a])).length (attemptExchanges g.index (as ++ [a])) with
    phase := g.response, byte := 8#10, poll := BitVec.ofNat 4 a.polls.length, r1 := a.response, cnt := s.cnt + as.length
    diag := if g.reports && s.sink then attemptEvents as ++ s.diag else s.diag }

theorem State.tried_nil (s : State) (g : Stage) (a : Attempt) : s.tried g [] a = s.attempted g.response g.index a := by
  simp [State.tried, State.attempted, attemptAnswers, attemptExchanges, attemptEvents]
  simp [State.answered]

theorem attemptAnswers_cons (y : Attempt) (as : List Attempt) :
    attemptAnswers (y :: as) = y.answers ++ attemptAnswers as := List.flatMap_cons

theorem attemptExchanges_cons (index : BitVec 6) (y : Attempt) (as : List Attempt) :
    attemptExchanges index (y :: as) = y.exchanges index ++ attemptExchanges index as := List.flatMap_cons

theorem attemptEvents_cons (y : Attempt) (as : List Attempt) :
    attemptEvents (y :: as) = attemptEvents as ++ [.r1Class (classR1 y.response) y.response] := List.reverse_cons

/-- The state after an attempt that another one follows. -/
def State.nextAttempt (s : State) (g : Stage) (y : Attempt) : State :=
  (s.attempted g.response g.index y).retry g.command g.index g.reports y.response

theorem State.nextAttempt_atCommand {s : State} {g : Stage} (hs : s.AtCommand g.command g.index) (y : Attempt) :
    (s.nextAttempt g y).AtCommand g.command g.index :=
  ⟨hs.busy, hs.hostWaits, rfl, rfl, rfl, rfl, rfl⟩

theorem State.nextAttempt_diag (s : State) (g : Stage) (y : Attempt) : (s.nextAttempt g y).diag =
    if g.reports && s.sink then .r1Class (classR1 y.response) y.response :: s.diag else s.diag := rfl

/-- The first of several attempts, then the others. -/
theorem State.nextAttempt_tried {s : State} {g : Stage} (hs : s.AtCommand g.command g.index) (y : Attempt)
    (as : List Attempt) (a : Attempt) :
    (s.nextAttempt g y).tried g as a = s.tried g (y :: as) a := by
  have hanswered := State.answered_answered (s := s) (t := s.nextAttempt g y)
    (attemptAnswers (as ++ [a])).length (attemptExchanges g.index (as ++ [a])) rfl rfl rfl
  have hcnt : s.cnt + (as.length + 1) = s.cnt + 1 + as.length := by omega
  have hdiag : (if g.reports && s.sink then attemptEvents (y :: as) ++ s.diag else s.diag)
      = if g.reports && s.sink then attemptEvents as ++ (s.nextAttempt g y).diag else (s.nextAttempt g y).diag := by
    rw [State.nextAttempt_diag]
    split_ifs <;> simp [attemptEvents_cons]
  rw [State.tried, State.tried, hanswered, hdiag, List.length_cons, hcnt, List.cons_append, attemptAnswers_cons,
    attemptExchanges_cons, List.length_append]
  exact congrArg (fun u : State => { u with
    phase := g.response, byte := 8#10, poll := BitVec.ofNat 4 a.polls.length, r1 := a.response, cnt := s.cnt + 1 + as.length
    diag := if g.reports && s.sink then attemptEvents as ++ (s.nextAttempt g y).diag else (s.nextAttempt g y).diag })
    (hs.answered_latched _ _)

/-- The attempts of a stage below its ceiling, all but the last answered otherwise than with what ends it. -/
theorem runs_attempts (g : Stage) {s : State} {as : List Attempt} {a : Attempt} (hs : s.AtCommand g.command g.index)
    (hcnt : s.cnt + as.length < g.ceiling) (has : ∀ y ∈ as, y.Valid ∧ y.response ≠ g.ends) (ha : a.Valid)
    (hsup : s.Supplies (attemptAnswers (as ++ [a]))) :
    Runs (attemptAnswers (as ++ [a])).length s (g.decision a.response (s.tried g as a)) := by
  induction as generalizing s with
  | nil =>
    have hone : attemptAnswers ([] ++ [a]) = a.answers := by simp [attemptAnswers]
    rw [hone] at hsup ⊢
    rw [State.tried_nil]
    exact runs_attempt g.sequence_command g.sequence_response hs ha hsup
  | cons y as ih =>
    rw [List.length_cons] at hcnt
    rw [List.cons_append, attemptAnswers_cons] at hsup
    obtain ⟨hy, hr⟩ := has y List.mem_cons_self
    have hfirst := runs_attempt g.sequence_command g.sequence_response hs hy hsup.left
    rw [g.decision_retry y.response _ hr (by show s.cnt + 1 ≠ _; omega)] at hfirst
    have hrest := ih (s := s.nextAttempt g y) (State.nextAttempt_atCommand hs y) (by show s.cnt + 1 + _ < _; omega)
      (fun z hz => has z (List.mem_cons_of_mem y hz)) (State.Supplies.congr rfl rfl hsup.right)
    rw [State.nextAttempt_tried hs] at hrest
    rw [List.cons_append, attemptAnswers_cons, List.length_append]
    exact hfirst.trans hrest

end Sys2Proof.Machine
end

section
/-! INITIALIZE with known answers (R176 to R186): its three stages in a row, and the ends it can come to. -/

namespace Sys2Proof.Machine

/-! ### Acceptance and `XportInit` (R177) -/

theorem exec_initializeCard_of_idle {s : State} (hb : s.busy = false) (x : BitVec 32) :
    exec (.initializeCard x) s = .next (s.accept 1#3).dispatch :=
  congrArg Host.Outcome.next (if_neg (by simp [hb]))

/-- Stage 1 is about to make its first attempt. -/
def State.resetStarted (s : State) : State :=
  { s.countInit.record .init with busy := true, op := 1#3, initState := .resetWait, cnt := 0 }.beginReset

theorem runs_xportInit {s : State} (hw : s.HostWaits) (hx : s.xport.inits ≠ some 0) :
    Runs 1 (s.accept 1#3).dispatch s.resetStarted :=
  Runs.one ((step_of_busy (s := (s.accept 1#3).dispatch) rfl hw).trans (if_neg hx))

/-! ### Stage 1 (R178 to R180) -/

/-- The attempts of stage 1 have been made, and what follows the last one has not been decided. -/
def State.afterResetStage (s : State) (as : List Attempt) (a : Attempt) : State :=
  { s.countInit.answered (attemptAnswers (as ++ [a])).length (.init :: attemptExchanges 0#6 (as ++ [a])) with
    busy := true, phase := .iResetResp, op := 1#3, idxCmd := 0#6, argHi := 0#16, argLo := 0#16, cnt := as.length
    poll := BitVec.ofNat 4 a.polls.length, byte := 8#10, r1 := a.response, initState := .resetWait }

theorem State.resetStarted_tried (s : State) (as : List Attempt) (a : Attempt) :
    s.resetStarted.tried resetStage as a = s.afterResetStage as a := by
  have hanswered := State.answered_answered (s := s.countInit) (t := s.resetStarted) (m := 0) (es := [.init])
    (attemptAnswers (as ++ [a])).length (attemptExchanges 0#6 (as ++ [a])) rfl rfl rfl
  have hcnt : s.resetStarted.cnt + as.length = as.length := Nat.zero_add _
  rw [Nat.zero_add] at hanswered
  rw [State.tried, hcnt]
  exact congrArg (fun u : State => { u with
    phase := .iResetResp, byte := 8#10, poll := BitVec.ofNat 4 a.polls.length, r1 := a.response, cnt := as.length }) hanswered

/-- A whole stage 1, to the decision after its last attempt. -/
theorem runs_resetStage {s : State} {as : List Attempt} {a : Attempt} (hw : s.HostWaits) (hx : s.xport.inits ≠ some 0)
    (hlen : as.length < 512) (has : ∀ y ∈ as, y.Valid ∧ y.response ≠ 0x01#8) (ha : a.Valid)
    (hsup : s.Supplies (attemptAnswers (as ++ [a]))) :
    Runs (1 + (attemptAnswers (as ++ [a])).length) (s.accept 1#3).dispatch
      (resetAttempt a.response (s.afterResetStage as a)) := by
  have hrun := runs_attempts resetStage (s := s.resetStarted) ⟨rfl, hw, rfl, rfl, rfl, rfl, rfl⟩
    (by rw [show s.resetStarted.cnt + as.length = as.length from Nat.zero_add _]; exact hlen) has ha
    (State.Supplies.congr (s := s.countInit) rfl rfl hsup)
  rw [State.resetStarted_tried] at hrun
  exact (runs_xportInit hw hx).trans hrun

/-- Settles O41: the 512th attempt is the last one, and its response decides between the two failures (D14). -/
theorem resetStageFailsAfter512Attempts : Obligations.ResetStageFailsAfter512Attempts := by
  intro s x as a hb hw hx hlen has hsup
  obtain ⟨ha, hr⟩ := has a (by simp)
  have hrun := runs_resetStage hw hx (by omega) (fun y hy => has y (List.mem_append_left _ hy)) ha hsup
  refine ⟨_, _, exec_initializeCard_of_idle hb x, rfl, ?_⟩
  have hcnt : (s.afterResetStage as a).cnt + 1 = 512 := congrArg (· + 1) hlen
  rw [s.countInit.skip_eq]
  obtain ⟨hi, -⟩ | ⟨hi, -, h⟩ | ⟨-, hi, -, h⟩ | ⟨-, hne, -⟩ := resetAttempt_cases a.response (s.afterResetStage as a)
  · exact absurd hi hr
  · rw [h, hcnt] at hrun
    rw [if_pos hi, if_neg fun hc => hc.2 hi]
    exact hrun
  · rw [h, hcnt, State.reportR1_eq] at hrun
    simp only [hi, ne_eq, not_false_eq_true, and_true, if_false]
    exact hrun
  · exact absurd hcnt hne

/-! ### Stage 2 (R181 to R183) -/

/-- Stage 2 is about to make its first attempt. -/
def State.opCondStarted (s : State) (as : List Attempt) (a : Attempt) : State :=
  { s.afterResetStage as a with initState := .opCondWait, cnt := 0 }.beginOpCond

/-- The attempts of stage 2 have been made, and what follows the last one has not been decided. -/
def State.afterOpCondStage (s : State) (as : List Attempt) (a : Attempt) (bs : List Attempt) (b : Attempt) : State :=
  { s.countInit.answered ((attemptAnswers (as ++ [a])).length + (attemptAnswers (bs ++ [b])).length)
      (.init :: (attemptExchanges 0#6 (as ++ [a]) ++ attemptExchanges 1#6 (bs ++ [b]))) with
    busy := true, phase := .iOpCondResp, op := 1#3, idxCmd := 1#6, argHi := 0#16, argLo := 0#16, cnt := bs.length
    poll := BitVec.ofNat 4 b.polls.length, byte := 8#10, r1 := b.response, initState := .opCondWait
    diag := if s.sink then attemptEvents bs ++ s.diag else s.diag }

theorem State.opCondStarted_tried (s : State) (as : List Attempt) (a : Attempt) (bs : List Attempt) (b : Attempt) :
    (s.opCondStarted as a).tried opCondStage bs b = s.afterOpCondStage as a bs b := by
  have hanswered := State.answered_answered (s := s.countInit) (t := s.opCondStarted as a)
    (es := .init :: attemptExchanges 0#6 (as ++ [a])) (attemptAnswers (bs ++ [b])).length
    (attemptExchanges 1#6 (bs ++ [b])) rfl rfl rfl
  have hcnt : (s.opCondStarted as a).cnt + bs.length = bs.length := Nat.zero_add _
  rw [State.tried, hcnt]
  exact congrArg (fun u : State => { u with
    phase := .iOpCondResp, byte := 8#10, poll := BitVec.ofNat 4 b.polls.length, r1 := b.response, cnt := bs.length
    diag := if s.sink then attemptEvents bs ++ s.diag else s.diag }) hanswered

section
variable {s : State} {as bs : List Attempt} {a b : Attempt} (hw : s.HostWaits) (hx : s.xport.inits ≠ some 0)
  (has : as.length < 512) (hasv : ∀ y ∈ as, y.Valid ∧ y.response ≠ 0x01#8) (ha : a.Valid) (hr : a.response = 0x01#8)
  (hbs : bs.length < 32000) (hbsv : ∀ y ∈ bs, y.Valid ∧ y.response ≠ 0x00#8) (hb : b.Valid)
include hw hx has hasv ha hr hbs hbsv hb

/-- A stage 1 that succeeds and a whole stage 2, to the decision after its last attempt. -/
theorem runs_opCondStage (hsup : s.Supplies (attemptAnswers (as ++ [a]) ++ attemptAnswers (bs ++ [b]))) :
    Runs (1 + ((attemptAnswers (as ++ [a])).length + (attemptAnswers (bs ++ [b])).length)) (s.accept 1#3).dispatch
      (opCondAttempt b.response (s.afterOpCondStage as a bs b)) := by
  have hreset := runs_resetStage hw hx has hasv ha hsup.left
  have hdone : resetAttempt a.response (s.afterResetStage as a) = s.opCondStarted as a := if_pos hr
  have hsup' : s.countInit.Supplies (attemptAnswers (as ++ [a]) ++ attemptAnswers (bs ++ [b])) := hsup
  have hopCond := runs_attempts opCondStage (s := s.opCondStarted as a) ⟨rfl, hw, rfl, rfl, rfl, rfl, rfl⟩
    (by rw [show (s.opCondStarted as a).cnt + bs.length = bs.length from Nat.zero_add _]; exact hbs) hbsv hb
    (State.Supplies.congr rfl rfl hsup'.right)
  rw [State.opCondStarted_tried] at hopCond
  rw [← Nat.add_assoc]
  exact (hdone ▸ hreset).trans hopCond

end

/-- Settles O42: the 32000th attempt is the last one, and its response is the failure's (D14). -/
theorem opCondStageFailsAfter32000Attempts : Obligations.OpCondStageFailsAfter32000Attempts := by
  intro s x as bs a b hb hw hx has hasv ha hr hbs hbsv hsup
  obtain ⟨hbv, hne⟩ := hbsv b (by simp)
  have hrun := runs_opCondStage hw hx has hasv ha hr (by omega) (fun y hy => hbsv y (List.mem_append_left _ hy)) hbv hsup
  refine ⟨_, _, exec_initializeCard_of_idle hb x, rfl, ?_⟩
  have hcnt : (s.afterOpCondStage as a bs b).cnt + 1 = 32000 := congrArg (· + 1) hbs
  obtain ⟨hi, -⟩ | ⟨-, -, h⟩ | ⟨-, hc, -⟩ := opCondAttempt_cases b.response (s.afterOpCondStage as a bs b)
  · exact absurd hi hne
  · have hevents : attemptEvents (bs ++ [b]) = .r1Class (classR1 b.response) b.response :: attemptEvents bs := by
      simp [attemptEvents]
    have hdiag : (if s.sink then attemptEvents (bs ++ [b]) ++ s.diag else s.diag)
        = if s.sink then .r1Class (classR1 b.response) b.response ::
            (if s.sink then attemptEvents bs ++ s.diag else s.diag)
          else (if s.sink then attemptEvents bs ++ s.diag else s.diag) := by
      split_ifs <;> simp [hevents]
    rw [h, hcnt, State.reportR1_eq] at hrun
    rw [s.countInit.skip_eq, hdiag]
    exact hrun
  · exact absurd hcnt hc

/-! ### Stage 3 (R184, R185) -/

/-- The R2 word of stage 3 has been received and not been checked. -/
def State.afterStatus (s : State) (frame polls : List Byte) (high low : Byte) : State :=
  { s.answered (8 + polls.length + 1)
      (exchanges (frameBytes 13#6 0#16 0#16 ++ idleBytes (polls.length + 1)) (frame ++ polls ++ [low])) with
    phase := .iStatusLo, byte := 8#10, poll := BitVec.ofNat 4 polls.length, r1 := high, r2 := high ++ low }

/-- READ_R2 has received its high byte (R144). -/
def State.afterStatusHigh (s : State) (a : Attempt) : State :=
  { s.attempted .iStatusHi 13#6 a with phase := .iStatusLo }

theorem runs_statusHigh {s : State} {a : Attempt} (hs : s.AtCommand .iStatusCmd 13#6) (ha : a.Valid)
    (hsup : s.Supplies a.answers) : Runs a.answers.length s (s.afterStatusHigh a) :=
  runs_attempt (q := .iStatusHi) (f := fun _ t => { t with phase := .iStatusLo })
    (fun u hu => by simp only [sequence, hu]; rfl) (fun u hu => by simp only [sequence, hu]; rfl) hs ha hsup

/-- The one exchange for the low byte of R2, and the status check (R144, R184). -/
theorem runs_statusLow {s : State} {low : Byte} (hb : s.busy = true) (hw : s.HostWaits) (hp : s.phase = .iStatusLo)
    (ha : s.answerAt 0 = some low) :
    Runs 1 s (statusCheck (s.r1 ++ low)
      { s.answered 1 (exchanges [Config.idleByte] [low]) with r2 := s.r1 ++ low }) := by
  have hstep := step_of_busy hb hw
  rw [sequence_of_answer (by simp [hp]) (by simp [hp]) (by simp [State.IndexFits, hp]) ha, State.sends, hp] at hstep
  rw [← composeR2_eq_append]
  exact Runs.one hstep

/-- A whole stage 3: a frame, a READ_R2, and the status check. -/
theorem runs_status {s : State} {frame polls : List Byte} {high low : Byte} (hs : s.AtCommand .iStatusCmd 13#6)
    (hf : frame.length = 8) (hp : Polled polls high) (hsup : s.Supplies (frame ++ polls ++ [low])) :
    Runs (8 + polls.length + 1) s (statusCheck (high ++ low) (s.afterStatus frame polls high low)) := by
  have ha : (Attempt.mk frame polls high).Valid := ⟨hf, hp⟩
  have hn : (Attempt.mk frame polls high).answers.length = 8 + polls.length := by
    rw [Attempt.answers, List.length_append, hf]
  have hhigh := runs_statusHigh hs ha hsup.left
  have hlow := runs_statusLow (s := s.afterStatusHigh ⟨frame, polls, high⟩) (low := low) hs.busy hs.hostWaits rfl
    (State.Supplies.head (State.Supplies.congr rfl rfl hsup.right))
  have hanswered := State.answered_answered (s := s) (t := s.afterStatusHigh ⟨frame, polls, high⟩) 1
    (exchanges [Config.idleByte] [low]) rfl rfl rfl
  have hexchanges : (Attempt.mk frame polls high).exchanges 13#6 ++ exchanges [Config.idleByte] [low]
      = exchanges (frameBytes 13#6 0#16 0#16 ++ idleBytes (polls.length + 1)) (frame ++ polls ++ [low]) := by
    rw [idleBytes_add, ← List.append_assoc]
    exact (exchanges_append _ _ (by rw [hn, List.length_append, idleBytes_length]; rfl)).symm
  rw [hexchanges, hn] at hanswered
  rw [hanswered] at hlow
  exact (hn ▸ hhigh).trans hlow

theorem State.reportR2_eq (s : State) (w : Half) :
    s.reportR2 w = { s with diag := if s.sink then .r2Class (classR2 w) w :: s.diag else s.diag } :=
  s.report_eq _

theorem statusCheck_of_ne {w : Half} (h : w ≠ 0x0000#16) (s : State) :
    statusCheck w s = (s.reportR2 w).raise (.init (.statusNotReady w)) := if_neg h

/-- Settles O43: the word of the one READ_R2 is not `0x0000`, and the status check fails. -/
theorem statusCheckFailsOnAnyOtherWord : Obligations.StatusCheckFailsOnAnyOtherWord := by
  intro s frame polls high low hb hw hp hbyte hfits hf hpolls hne hsup
  obtain ⟨hidx, hhi, hlo⟩ : s.idxCmd = 13#6 ∧ s.argHi = 0#16 ∧ s.argLo = 0#16 := by
    simpa [State.FrameFits, hp] using hfits
  have hrun := runs_status ⟨hb, hw, hp, hbyte, hidx, hhi, hlo⟩ hf hpolls hsup
  rw [statusCheck_of_ne hne, State.reportR2_eq] at hrun
  rw [s.skip_eq]
  exact hrun

/-! ### The three stages -/

/-- Stage 3 is about to send its frame. -/
def State.statusStarted (s : State) (as : List Attempt) (a : Attempt) (bs : List Attempt) (b : Attempt) : State :=
  { s.afterOpCondStage as a bs b with cnt := bs.length + 1, initState := .statusCheck }.beginStatus

section
variable {s : State} {as bs : List Attempt} {a b : Attempt} {frame polls : List Byte} {high low : Byte}
  (hw : s.HostWaits) (hx : s.xport.inits ≠ some 0)
  (has : as.length < 512) (hasv : ∀ y ∈ as, y.Valid ∧ y.response ≠ 0x01#8) (ha : a.Valid) (hr : a.response = 0x01#8)
  (hbs : bs.length < 32000) (hbsv : ∀ y ∈ bs, y.Valid ∧ y.response ≠ 0x00#8) (hb : b.Valid)
  (hbr : b.response = 0x00#8) (hf : frame.length = 8) (hp : Polled polls high)
include hw hx has hasv ha hr hbs hbsv hb hbr hf hp

/-- Two stages that succeed and a whole stage 3, to the status check. -/
theorem runs_threeStages
    (hsup : s.Supplies (attemptAnswers (as ++ [a]) ++ attemptAnswers (bs ++ [b]) ++ (frame ++ polls ++ [low]))) :
    Runs (1 + ((attemptAnswers (as ++ [a])).length + (attemptAnswers (bs ++ [b])).length + (8 + polls.length + 1)))
      (s.accept 1#3).dispatch
      (statusCheck (high ++ low) ((s.statusStarted as a bs b).afterStatus frame polls high low)) := by
  have hopCond := runs_opCondStage hw hx has hasv ha hr hbs hbsv hb hsup.left
  have hdone : opCondAttempt b.response (s.afterOpCondStage as a bs b) = s.statusStarted as a bs b := if_pos hbr
  have hsup' : s.countInit.Supplies
      (attemptAnswers (as ++ [a]) ++ attemptAnswers (bs ++ [b]) ++ (frame ++ polls ++ [low])) := hsup
  have hrest := hsup'.right
  rw [List.length_append] at hrest
  have hstatus := runs_status (s := s.statusStarted as a bs b) ⟨rfl, hw, rfl, rfl, rfl, rfl, rfl⟩ hf hp
    (State.Supplies.congr rfl rfl hrest)
  rw [← Nat.add_assoc]
  exact (hdone ▸ hopCond).trans hstatus

end

/-- Settles O40: the word of the one READ_R2 is `0x0000`, and the status check succeeds (D14). -/
theorem initializeReachesReady : Obligations.InitializeReachesReady := by
  intro s x as bs a b frame polls hb hw hx has hasv ha hr hbs hbsv hbv hbr hf hp hsup
  have hrun := runs_threeStages hw hx has hasv ha hr hbs hbsv hbv hbr hf hp hsup
  refine ⟨_, _, exec_initializeCard_of_idle hb x, rfl, ?_⟩
  have hanswered := State.answered_answered (s := s.countInit) (t := s.statusStarted as a bs b)
    (es := .init :: (attemptExchanges 0#6 (as ++ [a]) ++ attemptExchanges 1#6 (bs ++ [b]))) (8 + polls.length + 1)
    (exchanges (frameBytes 13#6 0#16 0#16 ++ idleBytes (polls.length + 1)) (frame ++ polls ++ [0x00#8])) rfl rfl rfl
  have hready : ∀ t : State, statusCheck (0x00#8 ++ 0x00#8) t = { t with initState := .ready }.succeed 0#16 :=
    fun t => if_pos rfl
  rw [hready, State.afterStatus, hanswered] at hrun
  rw [s.countInit.skip_eq]
  exact hrun

end Sys2Proof.Machine
end

section
/-! INITIALIZE ends whatever is answered (R188): every line that completes supplies attempts, and they come to one of the ends. -/

namespace Sys2Proof.Machine

/-! ### The silent card -/

theorem attemptAnswers_replicate_silent (n : Nat) :
    attemptAnswers (List.replicate n Attempt.silent) = List.replicate (n * 16) 0xFF#8 := by
  have hanswers : Attempt.silent.answers = List.replicate 16 0xFF#8 := (idleBytes_add 8 8).symm
  rw [attemptAnswers, List.flatMap_replicate, hanswers, List.flatten_replicate_replicate]

theorem State.supplies_replicate {s : State} {n : Nat} {b : Byte} (h : ∀ k, k < n → s.answerAt k = some b) :
    s.Supplies (List.replicate n b) := by
  intro k hk
  rw [List.getElem_replicate]
  exact h k (by simpa using hk)

/-! ### Exchanges in the trace -/

/-- Elements of a trace that are exchanges, `n` of them. -/
def AllExchanges (es : List Transaction) (n : Nat) : Prop := es.length = n ∧ ∀ e ∈ es, e.IsXchg

theorem AllExchanges.append {es fs : List Transaction} {m n : Nat} (he : AllExchanges es m) (hf : AllExchanges fs n) :
    AllExchanges (es ++ fs) (m + n) := by
  refine ⟨by rw [List.length_append, he.1, hf.1], fun e h => ?_⟩
  exact (List.mem_append.mp h).elim (he.2 e) (hf.2 e)

theorem allExchanges_exchanges {outs as : List Byte} (h : outs.length = as.length) :
    AllExchanges (exchanges outs as) as.length := by
  refine ⟨by simp [exchanges, h], fun e he => ?_⟩
  obtain ⟨k, hk, rfl⟩ := List.mem_iff_getElem.mp he
  exact ⟨_, _, List.getElem_zipWith⟩

theorem Attempt.Valid.allExchanges {a : Attempt} (h : a.Valid) (index : BitVec 6) :
    AllExchanges (a.exchanges index) a.answers.length :=
  allExchanges_exchanges (by
    have hl : a.frame.length = 8 := h.1
    rw [Attempt.answers, List.length_append, List.length_append, idleBytes_length, hl]
    rfl)

theorem allExchanges_attempts (index : BitVec 6) {as : List Attempt} (h : ∀ y ∈ as, y.Valid) :
    AllExchanges (attemptExchanges index as) (attemptAnswers as).length := by
  induction as with
  | nil => exact ⟨rfl, by simp [attemptExchanges]⟩
  | cons y as ih =>
    rw [attemptExchanges_cons, attemptAnswers_cons, List.length_append]
    exact ((h y List.mem_cons_self).allExchanges index).append (ih fun z hz => h z (List.mem_cons_of_mem y hz))

/-- Stage 1 ends with `NoResponse` and no event when the last of its attempts is answered with the idle byte (R180). -/
theorem exists_noResponse {s : State} (x : BitVec 32) {as : List Attempt} {a : Attempt} (hb : s.busy = false)
    (hw : s.HostWaits) (hx : s.xport.inits ≠ some 0) (hlen : as.length = 511)
    (has : ∀ y ∈ as ++ [a], y.Valid ∧ y.response ≠ 0x01#8) (hr : a.response = 0xFF#8)
    (hsup : s.Supplies (attemptAnswers (as ++ [a]))) :
    ∃ u t, exec (.initializeCard x) s = .next u ∧ Runs (1 + (attemptAnswers (as ++ [a])).length) u t ∧ t.busy = false ∧
      t.result = .err (.init .noResponse) ∧ t.initState = .failed .noResponse ∧ t.buf = s.buf ∧ t.diag = s.diag ∧
      t.trace = (.init :: attemptExchanges 0#6 (as ++ [a])).reverse ++ s.trace := by
  obtain ⟨u, f, hexec, hf, hrun⟩ := resetStageFailsAfter512Attempts s x as a hb hw hx hlen has hsup
  rw [if_pos hr] at hf
  subst hf
  exact ⟨u, _, hexec, hrun, rfl, rfl, rfl, State.skip_buf _ s.countInit, if_neg fun hc => hc.2 hr, rfl⟩

/-- Settles O44: a silent line answers the 512 attempts of stage 1 with idle bytes only. -/
theorem silentCardGivesNoResponse : Obligations.SilentCardGivesNoResponse := by
  intro s x hb hw hx hsilent
  have hattempts : List.replicate 511 Attempt.silent ++ [Attempt.silent] = List.replicate 512 Attempt.silent :=
    (List.replicate_succ' (n := 511)).symm
  have hvalid : ∀ y ∈ List.replicate 512 Attempt.silent, y.Valid ∧ y.response ≠ 0x01#8 := fun y hy => by
    rw [List.eq_of_mem_replicate hy]
    exact ⟨⟨rfl, 7, by decide, rfl, .inr rfl⟩, by decide⟩
  have hlen : (attemptAnswers (List.replicate 512 Attempt.silent)).length = 8192 := by
    rw [attemptAnswers_replicate_silent, List.length_replicate]
  have hsup : s.Supplies (attemptAnswers (List.replicate 512 Attempt.silent)) := by
    rw [attemptAnswers_replicate_silent]
    exact State.supplies_replicate hsilent
  have hend := exists_noResponse x hb hw hx (as := List.replicate 511 Attempt.silent) (a := Attempt.silent)
    List.length_replicate (by rwa [hattempts]) rfl (by rwa [hattempts])
  rw [hattempts, hlen] at hend
  obtain ⟨u, t, hexec, hrun, hidle, hresult, hinit, hbuf, hdiag, htrace⟩ := hend
  exact ⟨u, t, hexec, hrun, hidle, hresult, hinit, hbuf, hdiag, htrace,
    (allExchanges_attempts 0#6 fun y hy => (hvalid y hy).1).1.trans hlen⟩

/-! ### What a completing line answers -/

theorem State.exists_answerAt {s : State} (h : s.xport.after ≠ .hung) (k : Nat) : ∃ b, s.answerAt k = some b := by
  unfold State.answerAt
  split
  · next b _ => exact ⟨b, rfl⟩
  · split
    · exact ⟨_, rfl⟩
    · exact ⟨_, rfl⟩
    · next hh => exact absurd hh h

theorem State.exists_supplies {s : State} (h : s.xport.after ≠ .hung) (n : Nat) :
    ∃ l : List Byte, l.length = n ∧ s.Supplies l := by
  choose f hf using fun k => State.exists_answerAt h k
  exact ⟨(List.range n).map f, by simp, fun k _ => by simp [hf]⟩

/-- Any sixteen answers begin with those of one attempt (R141). -/
theorem exists_attempt {l : List Byte} (h : 16 ≤ l.length) :
    ∃ (a : Attempt) (rest : List Byte), a.Valid ∧ l = a.answers ++ rest ∧ l.length ≤ rest.length + 16 := by
  obtain ⟨n, r, hn, hp⟩ := polled_of_eight ((l.drop 8).take 8) (by rw [List.length_take, List.length_drop]; omega)
  rw [List.take_take, min_eq_left hn] at hp
  have hframe : (l.take 8).length = 8 := by rw [List.length_take]; omega
  refine ⟨⟨l.take 8, (l.drop 8).take n, r⟩, (l.drop 8).drop n, ⟨hframe, hp⟩, ?_, ?_⟩
  · rw [Attempt.answers, List.append_assoc, List.take_append_drop, List.take_append_drop]
  · rw [List.length_drop, List.length_drop]
    omega

/-- Enough answers begin with those of attempts up to the first response `ends`, or of `n + 1` attempts without one. -/
theorem exists_attempts (ends : Byte) (n : Nat) {l : List Byte} (h : 16 * (n + 1) ≤ l.length) :
    ∃ (as : List Attempt) (a : Attempt) (rest : List Byte), l = attemptAnswers (as ++ [a]) ++ rest ∧
      l.length ≤ rest.length + 16 * (n + 1) ∧ as.length ≤ n ∧ (∀ y ∈ as, y.Valid ∧ y.response ≠ ends) ∧ a.Valid ∧
      (a.response = ends ∨ a.response ≠ ends ∧ as.length = n) := by
  induction n generalizing l with
  | zero =>
    obtain ⟨a, rest, ha, rfl, hlen⟩ := exists_attempt h
    exact ⟨[], a, rest, by simp [attemptAnswers], hlen, le_rfl, by simp, ha, (em _).imp id fun hr => ⟨hr, rfl⟩⟩
  | succ n ih =>
    obtain ⟨y, rest, hy, rfl, hlen⟩ := exists_attempt (l := l) (by omega)
    by_cases hr : y.response = ends
    · exact ⟨[], y, rest, by simp [attemptAnswers], by omega, Nat.zero_le _, by simp, hy, .inl hr⟩
    · obtain ⟨as, a, rest', rfl, hlen', hle, has, ha, hlast⟩ := ih (l := rest) (by omega)
      refine ⟨y :: as, a, rest', ?_, by omega, Nat.succ_le_succ hle, ?_, ha,
        hlast.imp id fun ⟨hne, hn⟩ => ⟨hne, by simp [hn]⟩⟩
      · rw [List.cons_append, attemptAnswers_cons, List.append_assoc]
      · exact List.forall_mem_cons.mpr ⟨⟨hy, hr⟩, has⟩

/-! ### The ends of INITIALIZE -/

/-- INITIALIZE has ended: in `Ready`, or in a failure that is the result too (R187, R256). -/
def State.InitializeEnded (t : State) : Prop :=
  t.busy = false ∧ t.phase = .idle ∧ (t.initState = .ready ∨ ∃ f, t.initState = .failed f ∧ t.result = .err (.init f))

theorem statusCheck_ended (w : Half) (s : State) :
    (statusCheck w s).InitializeEnded ∧ (statusCheck w s).trace = s.trace := by
  rcases statusCheck_cases w s with ⟨-, h⟩ | ⟨-, h⟩ <;> rw [h]
  · exact ⟨⟨rfl, rfl, .inl rfl⟩, rfl⟩
  · exact ⟨⟨rfl, rfl, .inr ⟨_, rfl, rfl⟩⟩, by simp⟩

/-- A run from the acceptance of INITIALIZE to its end: one `init`, first, and then `n` exchanges (R177, R188). -/
structure State.InitializeRun (s t : State) (n : Nat) (es : List Transaction) : Prop where
  runs : Runs (1 + n) (s.accept 1#3).dispatch t
  exchanges : AllExchanges es n
  trace : t.trace = (.init :: es).reverse ++ s.trace
  ended : t.InitializeEnded

theorem forall_mem_attempts {P : Attempt → Prop} {as : List Attempt} {a : Attempt} (has : ∀ y ∈ as, P y) (ha : P a) :
    ∀ y ∈ as ++ [a], P y :=
  List.forall_mem_append.mpr ⟨has, List.forall_mem_singleton.mpr ha⟩

theorem allExchanges_stage (index : BitVec 6) {r : Byte} {as : List Attempt} {a : Attempt}
    (has : ∀ y ∈ as, y.Valid ∧ y.response ≠ r) (ha : a.Valid) :
    AllExchanges (attemptExchanges index (as ++ [a])) (attemptAnswers (as ++ [a])).length :=
  allExchanges_attempts index (forall_mem_attempts (fun y hy => (has y hy).1) ha)

section
variable {s : State} {as bs : List Attempt} {a b : Attempt} (hw : s.HostWaits)
  (hx : s.xport.inits ≠ some 0) (hasv : ∀ y ∈ as, y.Valid ∧ y.response ≠ 0x01#8) (ha : a.Valid)
include hw hx hasv ha

/-- INITIALIZE ends in stage 1. -/
theorem exists_run_of_reset_failure (hidle : s.busy = false) (has : as.length = 511) (hr : a.response ≠ 0x01#8)
    (hsup : s.Supplies (attemptAnswers (as ++ [a]))) :
    ∃ t, s.InitializeRun t (attemptAnswers (as ++ [a])).length (attemptExchanges 0#6 (as ++ [a])) := by
  obtain ⟨u, f, hexec, -, hrun⟩ := resetStageFailsAfter512Attempts s 0#32 as a hidle hw hx has
    (forall_mem_attempts hasv ⟨ha, hr⟩) hsup
  obtain rfl : (s.accept 1#3).dispatch = u :=
    Host.Outcome.next.inj ((exec_initializeCard_of_idle hidle 0#32).symm.trans hexec)
  exact ⟨_, hrun, allExchanges_stage 0#6 hasv ha, rfl, rfl, rfl,
    .inr ⟨f, rfl, rfl⟩⟩

variable (has : as.length < 512) (hr : a.response = 0x01#8) (hbsv : ∀ y ∈ bs, y.Valid ∧ y.response ≠ 0x00#8) (hb : b.Valid)
include has hr hbsv hb

/-- INITIALIZE ends in stage 2. -/
theorem exists_run_of_opCond_failure (hidle : s.busy = false) (hbs : bs.length = 31999)
    (hbr : b.response ≠ 0x00#8) (hsup : s.Supplies (attemptAnswers (as ++ [a]) ++ attemptAnswers (bs ++ [b]))) :
    ∃ t, s.InitializeRun t ((attemptAnswers (as ++ [a])).length + (attemptAnswers (bs ++ [b])).length)
      (attemptExchanges 0#6 (as ++ [a]) ++ attemptExchanges 1#6 (bs ++ [b])) := by
  obtain ⟨u, n, hexec, rfl, hrun⟩ := opCondStageFailsAfter32000Attempts s 0#32 as bs a b hidle hw hx has hasv ha hr hbs
    (forall_mem_attempts hbsv ⟨hb, hbr⟩) hsup
  obtain rfl : (s.accept 1#3).dispatch = u :=
    Host.Outcome.next.inj ((exec_initializeCard_of_idle hidle 0#32).symm.trans hexec)
  exact ⟨_, hrun, (allExchanges_stage 0#6 hasv ha).append (allExchanges_stage 1#6 hbsv hb), rfl, rfl, rfl, .inr ⟨_, rfl, rfl⟩⟩

/-- INITIALIZE ends in stage 3, whatever the status word is. -/
theorem exists_run_to_statusCheck {frame polls : List Byte} {high low : Byte} (hbs : bs.length < 32000)
    (hbr : b.response = 0x00#8) (hf : frame.length = 8) (hp : Polled polls high)
    (hsup : s.Supplies (attemptAnswers (as ++ [a]) ++ attemptAnswers (bs ++ [b]) ++ (frame ++ polls ++ [low]))) :
    ∃ t, s.InitializeRun t
      ((attemptAnswers (as ++ [a])).length + (attemptAnswers (bs ++ [b])).length + (8 + polls.length + 1))
      (attemptExchanges 0#6 (as ++ [a]) ++ attemptExchanges 1#6 (bs ++ [b])
        ++ exchanges (frameBytes 13#6 0#16 0#16 ++ idleBytes (polls.length + 1)) (frame ++ polls ++ [low])) := by
  have hrun := runs_threeStages hw hx has hasv ha hr hbs hbsv hb hbr hf hp hsup
  obtain ⟨hended, htrace⟩ := statusCheck_ended (high ++ low) ((s.statusStarted as a bs b).afterStatus frame polls high low)
  have hn : (frame ++ polls ++ [low]).length = 8 + polls.length + 1 := by
    rw [List.length_append, List.length_append, hf]
    rfl
  have hstatus := allExchanges_exchanges (outs := frameBytes 13#6 0#16 0#16 ++ idleBytes (polls.length + 1))
    (as := frame ++ polls ++ [low]) (by rw [hn, List.length_append, idleBytes_length]; rfl)
  rw [hn] at hstatus
  refine ⟨_, hrun, ((allExchanges_stage 0#6 hasv ha).append (allExchanges_stage 1#6 hbsv hb)).append hstatus,
    htrace.trans ?_, hended⟩
  simp [State.afterStatus, State.statusStarted, State.afterOpCondStage, State.beginStatus, State.answered]

end

/-- Settles O45: a completing line supplies attempts of stage 1, of stage 2 and a status word as far as they are needed, and
each way they can go is one of the ends of INITIALIZE. -/
theorem initializeTerminates : Obligations.InitializeTerminates := by
  intro s x hidle hw hc
  obtain ⟨hafter, hinits⟩ := hc
  have hx : s.xport.inits ≠ some 0 := by simp [hinits]
  suffices hends : ∃ n t es, n ≤ 520209 ∧ s.InitializeRun t n es by
    obtain ⟨n, t, es, hn, ⟨hrun, ⟨hlen, hes⟩, htrace, hbusy, hphase, hend⟩⟩ := hends
    exact ⟨n, _, t, es.reverse, hn, exec_initializeCard_of_idle hidle x, rfl, hrun, hbusy, hphase, by simp [htrace],
      by simp [hlen], fun e he => hes e (List.mem_reverse.mp he), hend⟩
  obtain ⟨l, hl, hsup⟩ := State.exists_supplies hafter 520209
  obtain ⟨as, a, l₁, rfl, hl₁, has, hasv, ha, hr | ⟨hr, hlen⟩⟩ := exists_attempts 0x01#8 511 (l := l) (by omega)
  case inr =>
    rw [List.length_append] at hl
    obtain ⟨t, hrun⟩ := exists_run_of_reset_failure hw hx hasv ha hidle hlen hr hsup.left
    exact ⟨_, t, _, by omega, hrun⟩
  obtain ⟨bs, b, l₂, rfl, hl₂, hbs, hbsv, hb, hbr | ⟨hbr, hlen⟩⟩ := exists_attempts 0x00#8 31999 (l := l₁) (by omega)
  case inr =>
    rw [List.length_append, List.length_append] at hl
    rw [← List.append_assoc] at hsup
    obtain ⟨t, hrun⟩ := exists_run_of_opCond_failure hw hx hasv ha (by omega) hr hbsv hb hidle hlen hbr hsup.left
    exact ⟨_, t, _, by omega, hrun⟩
  obtain ⟨⟨frame, polls, high⟩, l₃, ⟨hf, hp⟩, rfl, hl₃⟩ := exists_attempt (l := l₂) (by omega)
  obtain ⟨low, l₄, rfl⟩ := List.exists_cons_of_length_pos (l := l₃) (by omega)
  have hsplit : attemptAnswers (as ++ [a])
        ++ (attemptAnswers (bs ++ [b]) ++ (Attempt.answers ⟨frame, polls, high⟩ ++ low :: l₄))
      = attemptAnswers (as ++ [a]) ++ attemptAnswers (bs ++ [b]) ++ (frame ++ polls ++ [low]) ++ l₄ := by
    simp [Attempt.answers]
  rw [hsplit] at hsup hl
  obtain ⟨t, hrun⟩ := exists_run_to_statusCheck (frame := frame) (polls := polls) hw hx hasv ha (by omega) hr hbsv hb
    (by omega) hbr hf hp hsup.left
  have hlen : frame.length = 8 := hf
  simp only [List.length_append, List.length_singleton] at hl
  exact ⟨_, t, _, by omega, hrun⟩

end Sys2Proof.Machine
end

section
/-! `INIT_STATE` (R28, R187): the sector operations leave it alone, and every change of it, in a step or by an instruction, is one
of the transition relation's. -/

namespace Sys2Proof.Machine

/-! ### The sector operations (R177, R187) -/

theorem tokenDecision_initState (s : State) : (tokenDecision s).initState = s.initState := by
  rcases tokenDecision_cases s with ⟨-, -, h⟩ | ⟨-, b, f, h⟩ <;> simp [h]

theorem ackDecision_initState (r : Byte) (s : State) : (ackDecision r s).initState = s.initState := by
  rcases ackDecision_cases r s with ⟨-, -, h⟩ | ⟨-, h⟩ <;> simp [h]

theorem countTokenPoll_initState (i : Byte) (s : State) : (countTokenPoll i s).initState = s.initState := by
  rcases countTokenPoll_cases i s with ⟨-, h⟩ | ⟨-, -, h⟩ <;> rw [h]
  exact tokenDecision_initState _

theorem countBusyPoll_initState (i : Byte) (s : State) : (countBusyPoll i s).initState = s.initState := by
  rcases countBusyPoll_cases i s with ⟨-, h⟩ | ⟨-, -, h⟩ | ⟨-, -, h⟩ <;> simp [h]

/-- A relation to `INIT_STATE` that a loop's own assignments keep and its end establishes. -/
theorem countByte_initState {P : InitState → Prop} {n : BitVec 10} {done : State → State} {s : State} (hs : P s.initState)
    (hd : ∀ u : State, u.initState = s.initState → P (done u).initState) : P (countByte n done s).initState := by
  rcases countByte_cases n done s with ⟨-, h⟩ | ⟨-, h⟩ <;> rw [h]
  · exact hd _ rfl
  · exact hs

theorem countPoll_initState {P : InitState → Prop} {r : Byte} {done : State → State} {s : State} (hs : P s.initState)
    (hd : ∀ u : State, u.initState = s.initState → P (done u).initState) : P (countPoll r done s).initState := by
  rcases countPoll_cases r done s with ⟨-, h⟩ | ⟨-, -, h⟩ <;> rw [h]
  · exact hd _ rfl
  · exact hs

/-- Outside the phases of INITIALIZE no assignment after an exchange writes `INIT_STATE`. -/
theorem afterAnswer_initState (i : Byte) {s : State} (h : s.phase.opCode ≠ some 1#3) :
    (afterAnswer s.phase i s).initState = s.initState := by
  cases hp : s.phase with
  | iXportInit | iResetCmd | iResetResp | iOpCondCmd | iOpCondResp | iStatusCmd | iStatusHi | iStatusLo =>
    exact absurd (by rw [hp]; rfl) h
  | idle | wToken | wResp => rfl
  | rCmd | rData | rCrc | wCmd | wData | wCrc =>
    exact countByte_initState (P := (· = s.initState)) rfl fun u hu => hu
  | rAck => exact countPoll_initState (P := (· = s.initState)) rfl fun u hu => hu
  | wAck => exact countPoll_initState (P := (· = s.initState)) rfl fun u hu => (ackDecision_initState i u).trans hu
  | rToken => exact countTokenPoll_initState i s
  | wBusy => exact countBusyPoll_initState i s

theorem sequence_initState {s t : State} (hp : s.phase.opCode ≠ some 1#3) (h : sequence s = .next t) :
    t.initState = s.initState := by
  by_cases hi : s.phase = .idle
  · simp only [sequence, hi] at h
    cases h
    rfl
  · have hx : s.phase ≠ .iXportInit := fun e => hp (by rw [e]; rfl)
    obtain ⟨i, -, rfl⟩ := sequence_next h hi hx
    have := afterAnswer_initState i (s := s.consume.record (.xchg s.sends i)) (by simpa using hp)
    simpa using this

/-- Settles O52: the phases are none of INITIALIZE's, so the one transaction is an exchange and `INIT_STATE` stays. -/
theorem sectorOperationsLeaveInitState : Obligations.SectorOperationsLeaveInitState := by
  intro s t hop h
  have hp : s.phase.opCode ≠ some 1#3 := by rcases hop with hop | hop <;> simp [hop]
  have hi : s.phase ≠ .idle := fun e => by simp [e, Phase.opCode] at hop
  refine ⟨sequence_initState hp h, ?_⟩
  obtain ⟨hx, -⟩ | ⟨-, o, i, -, htrace, -⟩ := oneTransactionPerStep s t hi h
  · exact absurd (by rw [hx]; rfl) hp
  · exact ⟨o, i, htrace⟩

/-! ### INITIALIZE (R178 to R187) -/

theorem resetAttempt_transition (r : Byte) {s : State} (h : s.initState = .resetWait) :
    InitTransition .resetWait (resetAttempt r s).initState := by
  rcases resetAttempt_cases r s with ⟨-, he⟩ | ⟨-, -, he⟩ | ⟨hr, hi, -, he⟩ | ⟨-, -, he⟩ <;> rw [he]
  · exact .resetDone
  · exact .noResponse
  · exact .unexpectedResetResponse r ⟨hr, hi⟩
  · show InitTransition _ s.initState
    exact h ▸ .stay _

theorem opCondAttempt_transition (r : Byte) {s : State} (h : s.initState = .opCondWait) :
    InitTransition .opCondWait (opCondAttempt r s).initState := by
  rcases opCondAttempt_cases r s with ⟨-, he⟩ | ⟨hr, -, he⟩ | ⟨-, -, he⟩ <;> rw [he]
  · exact .opCondDone
  · exact .cardNotReady r hr
  · rw [State.beginOpCond, State.enterFrame_initState, State.reportR1_initState, h]
    exact .stay _

theorem statusCheck_transition (w : Half) (s : State) : InitTransition .statusCheck (statusCheck w s).initState := by
  rcases statusCheck_cases w s with ⟨-, he⟩ | ⟨hw, he⟩ <;> rw [he]
  · exact .statusReady
  · exact .statusNotReady w hw

/-- The assignments after an exchange of INITIALIZE make a transition of R187. -/
theorem afterAnswer_transition (i : Byte) {s : State} (hs : s.InitStateFits) (hp : s.phase.opCode = some 1#3) :
    InitTransition s.initState (afterAnswer s.phase i s).initState := by
  unfold State.InitStateFits at hs
  cases h : s.phase <;> simp only [h] at hs hp
  case iXportInit => exact .stay _
  case iResetCmd | iOpCondCmd | iStatusCmd =>
    exact countByte_initState (.stay _) fun u hu => hu ▸ .stay _
  case iStatusHi => exact countPoll_initState (.stay _) fun u hu => hu ▸ .stay _
  case iResetResp =>
    rw [hs]
    exact countPoll_initState (hs ▸ .stay _) fun u hu => resetAttempt_transition i (hu.trans hs)
  case iOpCondResp =>
    rw [hs]
    exact countPoll_initState (hs ▸ .stay _) fun u hu => opCondAttempt_transition i (hu.trans hs)
  case iStatusLo =>
    rw [hs]
    exact statusCheck_transition _ _
  all_goals simp [Phase.opCode] at hp

theorem sequence_transition {s t : State} (hs : s.Inv) (h : sequence s = .next t) :
    InitTransition s.initState t.initState := by
  by_cases hp : s.phase.opCode = some 1#3
  · by_cases hx : s.phase = .iXportInit
    · have hpower : s.initState = .powerOn := by simpa [State.InitStateFits, hx] using hs.initStateFits
      rw [sequence_next_of_xportInit h hx, hpower]
      exact .transportReady
    · obtain ⟨i, -, rfl⟩ := sequence_next h (fun e => by simp [e, Phase.opCode] at hp) hx
      have ht := afterAnswer_transition i (s := s.consume.record (.xchg s.sends i))
        (by simpa [State.InitStateFits] using hs.initStateFits) (by simpa using hp)
      simpa using ht
  · rw [sequence_initState hp h]
    exact .stay _

/-! ### Instructions (log entries 13, 14) -/

/-- A result that ends the operation in progress makes a transition of R187. -/
theorem State.endBy_transition {s : State} (hs : s.Inv) (r : Result) : InitTransition s.initState (s.endBy r).initState := by
  have hfits := hs.initStateFits
  obtain h | ⟨v, rfl, hc, h⟩ | ⟨f, rfl, hc, h⟩ := s.endBy_cases r <;> rw [h]
  · exact .stay _
  · show InitTransition _ (if s.phase = .iStatusLo then .ready else s.initState)
    split_ifs with hp
    · have hi : s.initState = .statusCheck := by simpa [State.InitStateFits, hp] using hfits
      exact hi ▸ .statusReady
    · exact .stay _
  · cases f with
    | io g => exact .stay _
    | init g =>
      rw [State.raise_init_initState]
      cases g with
      | noResponse =>
        obtain ⟨-, hp⟩ := s.canEnd_noResponse_iff.mp hc
        have hi : s.initState = .resetWait := by simpa [State.InitStateFits, hp] using hfits
        exact hi ▸ .noResponse
      | unexpectedResetResponse code =>
        obtain ⟨-, hp, hcode⟩ := (s.canEnd_unexpectedResetResponse_iff code).mp hc
        have hi : s.initState = .resetWait := by simpa [State.InitStateFits, hp] using hfits
        exact hi ▸ .unexpectedResetResponse code hcode
      | cardNotReady code =>
        obtain ⟨-, hp, hcode⟩ := (s.canEnd_cardNotReady_iff code).mp hc
        have hi : s.initState = .opCondWait := by simpa [State.InitStateFits, hp] using hfits
        exact hi ▸ .cardNotReady code hcode
      | statusNotReady code =>
        obtain ⟨-, hp, hcode⟩ := (s.canEnd_statusNotReady_iff code).mp hc
        have hi : s.initState = .statusCheck := by simpa [State.InitStateFits, hp] using hfits
        exact hi ▸ .statusNotReady code hcode

/-- Transactions of a sector operation made in one step leave `INIT_STATE` alone. -/
theorem runUntil_initState {last : Phase} {n : Nat} {s t : State} (hs : s.Inv) (hop : s.op ≠ 1#3)
    (h : runUntil last n s = .next t) : t.initState = s.initState := by
  have hkeep := runUntil_keeps (fun u => u.Inv ∧ u.op ≠ 1#3 ∧ u.initState = s.initState) ?_ n ⟨hs, hop, rfl⟩ h
  · exact hkeep.2.2
  · rintro u v ⟨hu, huop, hui⟩ huv
    obtain ⟨hvop, -⟩ := latchedOperandsStay u v huv
    exact ⟨sequence_keeps_inv hu huv, hvop ▸ huop, (sequence_initState (fun e => huop (hu.opFits _ e)) huv).trans hui⟩

/-- All that an instruction can do while an operation runs: a row of RESULT ends it, a data block goes on with it, and every
other instruction leaves the operation's registers alone. -/
theorem exec_next_of_busy {i : Instr} {s t : State} (hb : s.busy = true) (h : exec i s = .next t) :
    t.standing = s.standing ∨ (∃ r, t = s.endBy r) ∨
      ((s.phase = .rToken ∨ s.phase = .wToken) ∧ ∃ last n, runUntil last n s = .next t) := by
  cases i with
  | sendCommand | cmd0 | cmd1 | cmd13 | cmd17 | cmd24 => exact .inl (sendCommand_standing h)
  | controlNoop | controlQuerySectorCount | initializeCard | readSector | writeSector =>
    simp only [exec, execControlNoop, execControlQuerySectorCount, execInitializeCard, execReadSector, execWriteSector,
      hb] at h
    cases h
    exact .inl rfl
  | readR1 => exact .inl (execReadR1_standing h)
  | readR2 => exact .inl (execReadR2_standing h)
  | idle | dataStartToken =>
    simp only [exec, execIdle, execDataStartToken] at h
    obtain ⟨_, u, hu, hk⟩ := xchg_standing h
    cases hk
    exact .inl hu
  | rdblock =>
    by_cases hp : s.busy = true ∧ s.phase = .rToken
    · exact .inr (.inr ⟨.inl hp.2, _, _, (if_pos hp).symm.trans h⟩)
    · rw [exec_rdblock_of_not hp] at h
      cases h
      exact .inl rfl
  | wrblock =>
    by_cases hp : s.busy = true ∧ s.phase = .wToken
    · exact .inr (.inr ⟨.inr hp.2, _, _, (if_pos hp).symm.trans h⟩)
    · rw [exec_wrblock_of_not hp] at h
      cases h
      exact .inl rfl
  | resultOk | resultNoResponse | resultUnexpectedResetResponse | resultCardNotReady | resultStatusNotReady
  | resultProtocolError | resultFramingError | resultBusyTimeout =>
    cases h
    exact .inr (.inl ⟨_, rfl⟩)
  | diagR1Class | diagR2Class =>
    cases h
    exact .inl (by simp [State.standing])
  | _ =>
    cases h
    exact .inl rfl

theorem InitTransition.of_standing {s t : State} (h : t.standing = s.standing) :
    InitTransition s.initState t.initState := by
  obtain ⟨-, -, -, -, hi, -⟩ := State.standing_eq_iff.mp h
  exact hi ▸ .stay _

theorem exec_transition_of_busy {i : Instr} {s t : State} (hs : s.Inv) (hb : s.busy = true) (h : exec i s = .next t) :
    InitTransition s.initState t.initState := by
  obtain hstanding | ⟨r, rfl⟩ | ⟨hp, last, n, hrun⟩ := exec_next_of_busy hb h
  · exact .of_standing hstanding
  · exact s.endBy_transition hs r
  · have hop : s.op ≠ 1#3 := by
      rcases hp with hp | hp
      · rw [hs.opFits 2#3 (by rw [hp]; rfl)]; decide
      · rw [hs.opFits 3#3 (by rw [hp]; rfl)]; decide
    rw [runUntil_initState hs hop hrun]
    exact .stay _

/-- An instruction in `Idle` leaves `INIT_STATE` alone, but for an accepted INITIALIZE (R177). -/
theorem exec_initState_of_idle {i : Instr} {s t : State} (hb : s.busy = false) (h : exec i s = .next t) :
    t.initState = s.initState ∨
      (t.initState = .powerOn ∧ t.busy = true ∧ t.phase = .iXportInit ∧ ∃ x, i = .initializeCard x) := by
  obtain hstanding | ⟨c, rfl⟩ | ⟨x, hi, rfl⟩ | ⟨a, -, rfl⟩ | ⟨a, -, rfl⟩ := exec_next_of_idle hb h
  · obtain ⟨-, -, -, -, hi, -⟩ := State.standing_eq_iff.mp hstanding
    exact .inl hi
  · exact .inl rfl
  · exact .inr ⟨rfl, rfl, rfl, x, hi⟩
  · exact .inl rfl
  · exact .inl rfl

/-! ### Steps -/

/-- A move of the host in `Idle` leaves `INIT_STATE` alone, but for an accepted INITIALIZE and a reset (R36, R177). -/
theorem takeMove_initState {m : HostMove} {s t : State} (hb : s.busy = false) (h : takeMove m s = .next t) :
    t.initState = s.initState ∨
      (t.initState = .powerOn ∧ ((t.busy = true ∧ t.phase = .iXportInit) ∨ ∃ line, m = .reset line)) := by
  cases m with
  | request bytes =>
    simp only [takeMove] at h
    split at h
    · exact (exec_initState_of_idle hb h).imp id fun ⟨hi, htb, htp, _⟩ => ⟨hi, .inl ⟨htb, htp⟩⟩
    · cases h
  | setBusyBound bound =>
    simp only [takeMove] at h
    split at h
    · cases h
    · cases h
      exact .inl rfl
  | reset line =>
    cases h
    exact .inr ⟨rfl, .inr ⟨line, rfl⟩⟩
  | setWriteAckMode | storeBuffer | await | pause =>
    cases h
    exact .inl rfl

/-- Settles O51: a step is a reset, the running operation's transaction, waiting, or a move of the host in `Idle`; an instruction
is one of `exec_next_of_busy` or one of `exec_next_of_idle`. -/
theorem initStateFollowsItsTransitions : Obligations.InitStateFollowsItsTransitions := by
  refine ⟨fun s t hs h => ?_, fun i s t hs h => ?_⟩
  · obtain ⟨line, rest, hhost, he⟩ | ⟨-, moves, he⟩ | ⟨-, he⟩ | ⟨-, moves, he⟩ | ⟨hb, m, rest, hhost, he⟩ := step_cases s <;>
      rw [he] at h
    · cases h
      exact .inr ⟨rfl, .inr ⟨line, rest, hhost⟩⟩
    · exact .inl (sequence_transition (s := { s with host := moves }) (hs.withHost moves) h)
    · cases h
    · cases h
      exact .inl (.stay _)
    · obtain hi | ⟨hi, ⟨htb, htp⟩ | ⟨line, rfl⟩⟩ := takeMove_initState (s := { s with host := rest }) hb h
      · exact .inl (hi ▸ .stay _)
      · exact .inr ⟨hi, .inl ⟨hb, htb, htp⟩⟩
      · exact .inr ⟨hi, .inr ⟨line, rest, hhost⟩⟩
  · rcases Bool.eq_false_or_eq_true s.busy with hb | hb
    · exact .inl (exec_transition_of_busy hs hb h)
    · obtain hi | ⟨hi, -, -, hx⟩ := exec_initState_of_idle hb h
      · exact .inl (hi ▸ .stay _)
      · exact .inr ⟨hi, hb, hx⟩

end Sys2Proof.Machine
end

section
/-! READ_SECTOR (R200): its command and the poll for the acknowledgment, then the data block, to each end it can come to. -/

namespace Sys2Proof.Machine

/-! ### A command and the poll for its response -/

/-- A phase has sent the frame in the latches, and the next one is about to poll for the response (R120, R140). -/
def State.commandSent (s : State) (q : Phase) (frame : List Byte) : State :=
  { s.exchanged (frameBytes s.idxCmd s.argHi s.argLo) frame with byte := 8#10 }.enterPoll q

/-- A phase has polled for the response to the command in the latches, before what follows it (R120, R140). -/
def State.responded (s : State) (q : Phase) (frame polls : List Byte) (r : Byte) : State :=
  { s.exchanged (frameBytes s.idxCmd s.argHi s.argLo ++ idleBytes polls.length) (frame ++ polls) with
    phase := q, byte := 8#10, poll := BitVec.ofNat 4 polls.length, r1 := r }

/-- A phase that sends a frame, with any arguments, and one that polls for its response (R120, R140). -/
theorem runs_command {p q : Phase} {f : Byte → State → State}
    (hp : ∀ u : State, u.phase = p → sequence u = frameStep u (fun t => .next (t.enterPoll q)) .next)
    (hq : ∀ u : State, u.phase = q → sequence u = pollStep u (fun r t => .next (f r t)) .next) {s : State}
    {frame polls : List Byte} {r : Byte} (hb : s.busy = true) (hw : s.HostWaits) (hphase : s.phase = p)
    (hbyte : s.byte = 0#10) (hf : frame.length = 8) (hpolls : Polled polls r) (ha : s.Supplies (frame ++ polls)) :
    Runs (8 + polls.length) s (f r (s.responded q frame polls r)) := by
  have hframe : Runs 8 s (s.commandSent q frame) := by
    have h := runs_frame p (·.enterPoll q) hp s frame hb hphase hw hbyte hf ha.left
    rw [s.skip_eq 8] at h
    rw [State.commandSent, State.exchanged, hf]
    exact h
  have hpoll := runs_poll q f hq (s.commandSent q frame) polls r hb rfl hw rfl hpolls
    (State.Supplies.congr rfl rfl ha.right)
  rw [State.skip_eq] at hpoll
  have happend := State.exchanged_append (s := s) (t := s.commandSent q frame) (idleBytes polls.length) polls rfl rfl rfl
    hf.symm
  rw [State.responded]
  convert hframe.trans hpoll using 2
  exact congrArg (fun u : State => { u with poll := BitVec.ofNat 4 polls.length, r1 := r }) happend.symm

/-! ### READ_SECTOR up to its data block (R201, R202) -/

/-- READ_SECTOR has been accepted (R24, R200). -/
def State.readAccepted (s : State) (a : Addr) : State := { s.accept 2#3 with addr := a }.dispatch

theorem exec_readSector_of_idle {s : State} (hb : s.busy = false) (a : Addr) :
    exec (.readSector a) s = .next (s.readAccepted a) :=
  congrArg Host.Outcome.next (if_neg (by simp [hb]))

/-- READ_SECTOR has received its acknowledgment and is about to poll for the token (R202, R203). -/
def State.readAcknowledged (s : State) (a : Addr) (frame polls : List Byte) (ack : Byte) : State :=
  { (s.readAccepted a).responded .rAck frame polls ack with ack := ack }.enterCount .rToken

/-- The transport after the command supplies the data block. -/
theorem State.Supplies.readAcknowledged {s : State} {a : Addr} {frame polls as : List Byte} {ack : Byte}
    (ha : s.Supplies (frame ++ polls ++ as)) : (s.readAcknowledged a frame polls ack).Supplies as :=
  State.Supplies.congr rfl rfl (State.Supplies.right (s := s.readAccepted a) (State.Supplies.congr rfl rfl ha))

/-- READ_SECTOR after the exchanges of its command and those of its data block so far, which were answered `as` (R201 to
R208). -/
def State.inRead (s : State) (a : Addr) (frame polls : List Byte) (ack : Byte) (as : List Byte) (p : Phase) (cnt : Nat)
    (byte : BitVec 10) (tok : Byte) (buf : Memory) : State :=
  { s.exchanged (frameBytes 17#6 (offsetHi a) (offsetLo a) ++ idleBytes (polls.length + as.length))
      (frame ++ polls ++ as) with
    busy := true, phase := p, op := 2#3, addr := a, idxCmd := 17#6, argHi := offsetHi a, argLo := offsetLo a
    cnt := cnt, poll := BitVec.ofNat 4 polls.length, byte := byte, r1 := ack, ack := ack, tok := tok, buf := buf }

section
variable {s : State} (a : Addr) {frame polls : List Byte} {ack : Byte} (hf : frame.length = 8)
include hf

theorem State.readAcknowledged_inBlock (as : List Byte) (p : Phase) (cnt : Nat)
    (byte : BitVec 10) (tok : Byte) (buf : Memory) :
    (s.readAcknowledged a frame polls ack).inBlock (idleBytes as.length) as p cnt byte tok buf =
      s.inRead a frame polls ack as p cnt byte tok buf := by
  have h := State.exchanged_append (s := s) (t := s.readAcknowledged a frame polls ack)
    (outs := frameBytes 17#6 (offsetHi a) (offsetLo a) ++ idleBytes polls.length) (as := frame ++ polls)
    (idleBytes as.length) as (State.skip_xport_congr _ rfl rfl) (State.skip_draws_congr _ rfl rfl) rfl
    (by rw [List.length_append, List.length_append, hf, idleBytes_length]; rfl)
  rw [State.inBlock, h, State.inRead, idleBytes_add, ← List.append_assoc]
  rfl

theorem State.inRead_eq_skip (as : List Byte) (p : Phase) (cnt : Nat) (byte : BitVec 10)
    (tok : Byte) (buf : Memory) :
    s.inRead a frame polls ack as p cnt byte tok buf =
      { s.skip (8 + polls.length + as.length) with
        busy := true, phase := p, op := 2#3, addr := a, idxCmd := 17#6, argHi := offsetHi a, argLo := offsetLo a
        cnt := cnt, poll := BitVec.ofNat 4 polls.length, byte := byte, r1 := ack, ack := ack, tok := tok, buf := buf
        trace := (exchanges (frameBytes 17#6 (offsetHi a) (offsetLo a) ++ idleBytes (polls.length + as.length))
          (frame ++ polls ++ as)).reverse ++ s.trace } := by
  rw [State.inRead, State.exchanged, List.length_append, List.length_append, hf, s.skip_eq]

variable (hw : s.HostWaits) (hp : Polled polls ack)
include hw hp

theorem runs_readCommand (ha : s.Supplies (frame ++ polls)) :
    Runs (8 + polls.length) (s.readAccepted a) (s.readAcknowledged a frame polls ack) :=
  runs_command (s := s.readAccepted a) (p := .rCmd) (q := .rAck) (f := fun r t => { t with ack := r }.enterCount .rToken)
    (fun u hu => by simp only [sequence, hu]; rfl) (fun u hu => by simp only [sequence, hu]; rfl) rfl hw rfl rfl hf hp
    (State.Supplies.congr rfl rfl ha)

/-! ### The ends of READ_SECTOR (R206, R208) -/

/-- READ_SECTOR whose acceptance test fails ends with its token poll (R206). -/
theorem runs_rejectedRead {tokens : List Byte} {tok : Byte} (ht : TokenPolled tokens tok)
    (hreject : ¬(ack = 0x00#8 ∧ tok = 0xFE#8)) (ha : s.Supplies (frame ++ polls ++ tokens)) :
    Runs (8 + polls.length + tokens.length) (s.readAccepted a)
      (((s.inRead a frame polls ack tokens .rToken tokens.length 8#10 tok s.buf).reportR1
        (readFailure ack tok).2).raise (.io (readFailure ack tok).1)) := by
  have hblock := transacts_rejectedRead (s := s.readAcknowledged a frame polls ack) rfl rfl ht hreject
    ha.readAcknowledged
  rw [State.readAcknowledged_inBlock a hf] at hblock
  exact (runs_readCommand a hf hw hp ha.left).trans (hblock.runs (by decide) rfl hw)

/-- READ_SECTOR whose acceptance test passes takes its payload and ends (R207, R208). -/
theorem runs_acceptedRead {tokens payload sums : List Byte} (hack : ack = 0x00#8) (ht : TokenPolled tokens 0xFE#8)
    (hpayload : payload.length = 512) (hsums : sums.length = 2)
    (ha : s.Supplies (frame ++ polls ++ (tokens ++ payload ++ sums))) :
    Runs (8 + polls.length + (tokens ++ payload ++ sums).length) (s.readAccepted a)
      ((s.inRead a frame polls ack (tokens ++ payload ++ sums) .rCrc tokens.length 2#10 0xFE#8
        (Memory.store s.buf 0 payload)).succeed 0#16) := by
  have hn : tokens.length + 512 + 2 = (tokens ++ payload ++ sums).length := by
    rw [List.length_append, List.length_append, hpayload, hsums]
  have hblock := transacts_readBlock (s := s.readAcknowledged a frame polls ack) rfl rfl hack ht hpayload hsums
    ha.readAcknowledged
  rw [hn, State.readAcknowledged_inBlock a hf] at hblock
  exact (runs_readCommand a hf hw hp ha.left).trans (hblock.runs (by decide) rfl hw)

end

theorem Memory.read_store_of_le {m : Memory} {a b : Nat} {vs : List Byte} (hb : a + vs.length ≤ b) :
    Memory.read (Memory.store m a vs) b = Memory.read m b := by
  induction vs generalizing m a with
  | nil => rfl
  | cons v vs ih =>
    rw [List.length_cons] at hb
    rw [Memory.store, ih (by omega), Memory.read_write_other m a b v (by omega)]

/-- Settles O29: the acceptance test passes, and the payload is stored from index 0 on. -/
theorem readSectorDeliversThePayload : Obligations.ReadSectorDeliversThePayload := by
  intro s a frame polls payload m c1 c2 hb hw hwf hf hp hm hpayload ha
  have ht : TokenPolled (idleBytes m ++ [0xFE#8]) 0xFE#8 := ⟨m, hm, rfl, .inl (by decide)⟩
  have hl : (idleBytes m ++ [0xFE#8]).length = m + 1 := by rw [List.length_append, idleBytes_length]; rfl
  have hn : (idleBytes m ++ [0xFE#8] ++ payload ++ [c1, c2]).length = m + 1 + 514 := by
    rw [List.length_append, List.length_append, hl, hpayload]
    rfl
  rw [List.append_assoc (frame ++ polls), List.append_assoc (frame ++ polls)] at ha
  have hrun := runs_acceptedRead a hf hw hp rfl ht hpayload (sums := [c1, c2]) rfl ha
  rw [State.inRead_eq_skip a hf, hn, hl] at hrun
  simp only [← Nat.add_assoc _ (m + 1) 514] at hrun
  have hrest : ∀ i, 512 ≤ i → Memory.read (Memory.store s.buf 0 payload) i = Memory.read s.buf i :=
    fun i hi => Memory.read_store_of_le (by omega)
  refine ⟨_, _, exec_readSector_of_idle hb a, hrun, Memory.bytes_store hwf hpayload, hrest, ?_⟩
  simp only [List.append_assoc]
  rfl

/-- Settles O30: the acceptance test fails after the token poll. -/
theorem readSectorFailsBeforeAnyPayload : Obligations.ReadSectorFailsBeforeAnyPayload := by
  intro s a frame polls tokens ack tok hb hw hf hp ht hreject ha
  have hrun := runs_rejectedRead a hf hw hp ht hreject ha
  rw [State.inRead_eq_skip a hf, State.reportR1_eq] at hrun
  refine ⟨_, exec_readSector_of_idle hb a, ?_⟩
  rw [s.skip_eq] at hrun ⊢
  exact hrun

end Sys2Proof.Machine
end

section
/-! READ_SECTOR ends whatever is answered (R211): every line that completes supplies a command's answers and a data
block's. -/

namespace Sys2Proof.Machine

/-! ### What a completing line answers -/

/-- More than `n` answers begin with idle bytes and a response, which is idle only where it is answer `n + 1`. -/
theorem exists_firstResponse (n : Nat) {l : List Byte} (h : n < l.length) :
    ∃ (j : Nat) (r : Byte) (rest : List Byte), j ≤ n ∧ l = idleBytes j ++ [r] ++ rest ∧
      (r ≠ Config.idleByte ∨ j = n) := by
  induction n generalizing l with
  | zero =>
    obtain ⟨r, rest, rfl⟩ := List.exists_cons_of_length_pos h
    exact ⟨0, r, rest, le_rfl, rfl, .inr rfl⟩
  | succ n ih =>
    obtain ⟨r, rest, rfl⟩ := List.exists_cons_of_length_pos (Nat.zero_lt_of_lt h)
    by_cases hr : r = Config.idleByte
    · obtain ⟨j, r', rest', hj, rfl, hlast⟩ := ih (Nat.lt_of_succ_lt_succ h)
      exact ⟨j + 1, r', rest', Nat.succ_le_succ hj, hr ▸ rfl, hlast.imp id (congrArg (· + 1))⟩
    · exact ⟨0, r, rest, Nat.zero_le _, rfl, .inl hr⟩

/-- Any 65535 answers begin with those of one token poll (R203, R204). -/
theorem exists_tokenPolled {l : List Byte} (h : 65535 ≤ l.length) :
    ∃ tokens tok rest, l = tokens ++ rest ∧ TokenPolled tokens tok := by
  obtain ⟨j, tok, rest, hj, hl, hlast⟩ := exists_firstResponse 65534 (l := l) (by omega)
  exact ⟨_, tok, rest, hl, j, Nat.lt_succ_of_le hj, rfl, hlast.imp id (congrArg (· + 1))⟩

/-- Any 514 answers begin with a payload and two checksum bytes. -/
theorem exists_payload {l : List Byte} (h : 514 ≤ l.length) :
    ∃ payload sums rest : List Byte, l = payload ++ sums ++ rest ∧ payload.length = 512 ∧ sums.length = 2 := by
  refine ⟨l.take 512, (l.drop 512).take 2, (l.drop 512).drop 2, ?_, ?_, ?_⟩
  · rw [List.append_assoc, List.take_append_drop, List.take_append_drop]
  · rw [List.length_take]; omega
  · rw [List.length_take, List.length_drop]; omega

/-! ### The end of a sector operation -/

/-- From `u` the operation ends after `n` exchanges, which are all that the trace holds beyond that of `s` (R211). -/
def State.EndsAfter (s u : State) (n : Nat) : Prop :=
  ∃ t new, Runs n u t ∧ t.busy = false ∧ t.phase = .idle ∧ t.trace = new ++ s.trace ∧ AllExchanges new n

theorem allExchanges_read (a : Addr) {frame polls : List Byte} (hf : frame.length = 8) (as : List Byte) :
    AllExchanges (exchanges (frameBytes 17#6 (offsetHi a) (offsetLo a) ++ idleBytes (polls.length + as.length))
      (frame ++ polls ++ as)).reverse (8 + polls.length + as.length) := by
  have hn : (frame ++ polls ++ as).length = 8 + polls.length + as.length := by
    rw [List.length_append, List.length_append, hf]
  have houts : (frameBytes 17#6 (offsetHi a) (offsetLo a) ++ idleBytes (polls.length + as.length)).length
      = (frame ++ polls ++ as).length := by
    rw [hn, List.length_append, idleBytes_length, Nat.add_assoc]
    rfl
  obtain ⟨hlen, hall⟩ := allExchanges_exchanges houts
  exact ⟨by rw [List.length_reverse, hlen, hn], fun e he => hall e (List.mem_reverse.mp he)⟩

/-- READ_SECTOR ends after its token poll or after its checksum bytes. -/
theorem exists_readEnd {s : State} (a : Addr) {l : List Byte} (hw : s.HostWaits) (hl : l.length = 66065)
    (ha : s.Supplies l) : ∃ n, n ≤ 66065 ∧ s.EndsAfter (s.readAccepted a) n := by
  obtain ⟨⟨frame, polls, ack⟩, l₁, hvalid, rfl, hl₁⟩ := exists_attempt (l := l) (by omega)
  obtain ⟨hf, hp⟩ : frame.length = 8 ∧ Polled polls ack := hvalid
  obtain ⟨tokens, tok, l₂, rfl, ht⟩ := exists_tokenPolled (l := l₁) (by omega)
  have htokens := ht.length_le
  rw [hl, List.length_append] at hl₁
  obtain ⟨payload, sums, l₃, rfl, hpayload, hsums⟩ := exists_payload (l := l₂) (by omega)
  have hsplit : Attempt.answers ⟨frame, polls, ack⟩ ++ (tokens ++ (payload ++ sums ++ l₃)) =
    frame ++ polls ++ (tokens ++ payload ++ sums) ++ l₃ := by simp [Attempt.answers]
  rw [hsplit] at ha hl
  simp only [List.length_append] at hl
  by_cases haccept : ack = 0x00#8 ∧ tok = 0xFE#8
  · obtain ⟨hack, rfl⟩ := haccept
    have hrun := runs_acceptedRead a hf hw hp hack ht hpayload hsums ha.left
    exact ⟨_, by simp only [List.length_append]; omega, _, _, hrun, rfl, rfl, rfl, allExchanges_read a hf _⟩
  · have ha' : s.Supplies (frame ++ polls ++ tokens) := by
      rw [List.append_assoc tokens, ← List.append_assoc _ tokens] at ha
      exact ha.left.left
    have hrun := runs_rejectedRead a hf hw hp ht haccept ha'
    exact ⟨_, by omega, _, _, hrun, rfl, rfl, by simp [State.inRead, State.exchanged], allExchanges_read a hf tokens⟩

/-- Settles O31: a completing line supplies a command's answers, a token poll and a payload, and the read ends
within them. -/
theorem readSectorTerminates : Obligations.ReadSectorTerminates := by
  intro s a hb hw hafter
  obtain ⟨l, hl, ha⟩ := State.exists_supplies hafter 66065
  obtain ⟨n, hn, t, new, hrun, hbusy, hphase, htrace, hlen, hnew⟩ := exists_readEnd a hw hl ha
  exact ⟨n, _, t, new, hn, exec_readSector_of_idle hb a, rfl, hrun, hbusy, hphase, htrace, hlen, hnew⟩

end Sys2Proof.Machine
end

section
/-! The caller's buffer as its 512 bytes: they determine a canonical buffer, so storing them gives it back (R51, R232). -/

namespace Sys2Proof.Machine

theorem Memory.wf_store {m : Memory} {a : Nat} {vs : List Byte} (hwf : Memory.wf m = true) (ha : a + vs.length ≤ 512) :
    Memory.wf (Memory.store m a vs) = true := by
  induction vs generalizing m a with
  | nil => exact hwf
  | cons v vs ih =>
    rw [List.length_cons] at ha
    exact ih (Memory.wf_write m a v (by omega) hwf) (by omega)

theorem Memory.bytes_length (m : Memory) : (Memory.bytes m).length = 512 := by simp [Memory.bytes]

/-- Above the buffer's last index a canonical list has no entry (R51). -/
theorem Memory.read_of_le_of_wfFrom {m : Memory} {lo a : Nat} (ha : 512 ≤ a) (h : Memory.wfFrom lo m = true) :
    Memory.read m a = Memory.unlisted := by
  induction m generalizing lo with
  | nil => rfl
  | cons kv m ih =>
    obtain ⟨k, v⟩ := kv
    obtain ⟨-, hk, -, hm⟩ := Memory.wfFrom_cons_iff.mp h
    rw [Memory.read_cons_other v m (by omega)]
    exact ih hm

/-- The 512 bytes determine a canonical buffer (R51). -/
theorem Memory.eq_of_bytes_eq {m m' : Memory} (h : Memory.wf m = true) (h' : Memory.wf m' = true)
    (hbytes : Memory.bytes m = Memory.bytes m') : m = m' := by
  refine canonicalBuffersWithEqualBytesAreEqual m m' h h' fun a => ?_
  by_cases ha : a < 512
  · simpa [Memory.bytes, ha] using congrArg (fun l => l[a]?) hbytes
  · rw [Memory.read_of_le_of_wfFrom (not_lt.mp ha) h, Memory.read_of_le_of_wfFrom (not_lt.mp ha) h']

/-- Storing a buffer's bytes gives that buffer, whatever was there before (R232). -/
theorem Memory.store_bytes {m m' : Memory} (h : Memory.wf m = true) (h' : Memory.wf m' = true) :
    Memory.store m' 0 (Memory.bytes m) = m :=
  Memory.eq_of_bytes_eq (Memory.wf_store h' (by rw [Memory.bytes_length])) h
    (Memory.bytes_store h' (Memory.bytes_length m))

end Sys2Proof.Machine
end

section
/-! WRITE_SECTOR (R220): its command and the acknowledgment, then the data block and the busy poll, to each end it can come
to. -/

namespace Sys2Proof.Machine

/-! ### The busy poll's timeout (R228) -/

/-- As many busy polls as the bound, none of them a release, end the write (R228). -/
theorem transacts_busyTimeout {s : State} {as : List Byte} (hp : s.phase = .wBusy)
    (hne : ∀ b ∈ as, b ≠ Config.idleByte) (hpos : 0 < as.length) (hb : s.busyBound = some (s.cnt + as.length))
    (ha : s.Supplies as) :
    Transacts [.wBusy] as.length s ((s.afterPolls as).raise (.io .busyTimeout)) := by
  obtain ⟨init, last, rfl⟩ := (List.eq_nil_or_concat' as).resolve_left (List.ne_nil_of_length_pos hpos)
  obtain ⟨hinit, hlast⟩ := List.forall_mem_append.mp hne
  have hn : (init ++ [last]).length = init.length + 1 := List.length_append
  rw [hn] at hb ⊢
  have hpolls := transacts_busyPolls hp hinit (fun n h => by cases hb.symm.trans h; omega) ha.left
  have hanswer : (s.afterPolls init).answerAt 0 = some last :=
    State.Supplies.head (State.Supplies.congr rfl rfl ha.right)
  have hbound : (s.afterPolls init).busyBound = some ((s.afterPolls init).cnt + 1) := hb
  have h := sequence_of_busyPoll (s := s.afterPolls init) hp hanswer
  have happend : (s.afterPolls init).afterPolls [last] = s.afterPolls (init ++ [last]) :=
    s.afterPolls_append s.tok init [last]
  rw [if_neg (hlast last (List.mem_singleton_self last)), if_pos hbound, happend] at h
  exact (hpolls.append (Transacts.one hp h)).mono (by simp)

/-- The busy polls after the data block of a write, up to the bound, and the end of the write (R228). -/
theorem transacts_writeTimeout {s : State} {outs as busy : List Byte} {byte : BitVec 10} {tok : Byte} {buf : Memory}
    (hl : outs.length = as.length) (hne : ∀ b ∈ busy, b ≠ 0xFF#8) (hpos : 0 < busy.length)
    (hbound : s.busyBound = some busy.length) (ha : s.Supplies (as ++ busy)) :
    Transacts [.wBusy] busy.length (s.inBlock outs as .wBusy 0 byte tok buf)
      ((s.inBlock (outs ++ idleBytes busy.length) (as ++ busy) .wBusy busy.length byte tok buf).raise
        (.io .busyTimeout)) := by
  have h := transacts_busyTimeout (s := s.inBlock outs as .wBusy 0 byte tok buf) rfl hne hpos
    (hbound.trans (congrArg some (Nat.zero_add busy.length).symm)) ha.inBlock
  rw [State.afterPolls, State.inBlock_exchanged _ _ _ _ _ _ _ _ hl] at h
  simp only [State.inBlock, Nat.zero_add] at h
  exact h

theorem writeBlock_length (buf : Memory) :
    ([0xFE#8] ++ Memory.bytes buf ++ [0xFF#8, 0xFF#8, 0xFF#8]).length = 516 := by
  simp [Memory.bytes]

theorem writeBlockOuts_length (buf : Memory) (n : Nat) : (writeBlockOuts (Memory.bytes buf) n).length = 516 + n := by
  rw [writeBlockOuts, List.length_append, writeBlock_length, idleBytes_length]

/-! ### WRITE_SECTOR up to its acknowledgment (R221 to R224) -/

/-- WRITE_SECTOR has been accepted (R24, R220). -/
def State.writeAccepted (s : State) (a : Addr) : State := { s.accept 3#3 with addr := a }.dispatch

theorem exec_writeSector_of_idle {s : State} (hb : s.busy = false) (a : Addr) :
    exec (.writeSector a) s = .next (s.writeAccepted a) :=
  congrArg Host.Outcome.next (if_neg (by simp [hb]))

/-- WRITE_SECTOR has received its acknowledgment and is in phase `p` (R222). -/
def State.writeAcknowledged (s : State) (a : Addr) (frame polls : List Byte) (ack : Byte) (p : Phase) : State :=
  { (s.writeAccepted a).responded p frame polls ack with ack := ack }

/-- The transport after the command answers the data block. -/
theorem State.Supplies.writeAcknowledged {s : State} {a : Addr} {frame polls as : List Byte} {ack : Byte} {p : Phase}
    (ha : s.Supplies (frame ++ polls ++ as)) : (s.writeAcknowledged a frame polls ack p).Supplies as :=
  State.Supplies.congr rfl rfl (State.Supplies.right (s := s.writeAccepted a) (State.Supplies.congr rfl rfl ha))

/-- WRITE_SECTOR after the exchanges of its command and those of its data block so far, which sent `outs` and were answered
`as` (R221 to R228). -/
def State.inWrite (s : State) (a : Addr) (frame polls : List Byte) (ack : Byte) (outs as : List Byte) (p : Phase)
    (cnt : Nat) (byte : BitVec 10) : State :=
  { s.exchanged (frameBytes 24#6 (offsetHi a) (offsetLo a) ++ idleBytes polls.length ++ outs) (frame ++ polls ++ as) with
    busy := true, phase := p, op := 3#3, addr := a, idxCmd := 24#6, argHi := offsetHi a, argLo := offsetLo a
    cnt := cnt, poll := BitVec.ofNat 4 polls.length, byte := byte, r1 := ack, ack := ack }

section
variable {s : State} (a : Addr) {frame polls : List Byte} {ack : Byte} (hf : frame.length = 8)
include hf

theorem State.writeAcknowledged_inBlock (q : Phase) (outs as : List Byte) (p : Phase) (cnt : Nat) (byte : BitVec 10) :
    (s.writeAcknowledged a frame polls ack q).inBlock outs as p cnt byte s.tok s.buf =
      s.inWrite a frame polls ack outs as p cnt byte := by
  have h := State.exchanged_append (s := s) (t := s.writeAcknowledged a frame polls ack q)
    (outs := frameBytes 24#6 (offsetHi a) (offsetLo a) ++ idleBytes polls.length) (as := frame ++ polls) outs as
    (State.skip_xport_congr _ rfl rfl) (State.skip_draws_congr _ rfl rfl) rfl
    (by rw [List.length_append, List.length_append, hf, idleBytes_length]; rfl)
  rw [State.inBlock, h, State.inWrite]
  rfl

theorem State.inWrite_eq_skip (outs as : List Byte) (p : Phase) (cnt : Nat) (byte : BitVec 10) :
    s.inWrite a frame polls ack outs as p cnt byte =
      { s.skip (8 + polls.length + as.length) with
        busy := true, phase := p, op := 3#3, addr := a, idxCmd := 24#6, argHi := offsetHi a, argLo := offsetLo a
        cnt := cnt, poll := BitVec.ofNat 4 polls.length, byte := byte, r1 := ack, ack := ack
        trace := (exchanges (frameBytes 24#6 (offsetHi a) (offsetLo a) ++ idleBytes polls.length ++ outs)
          (frame ++ polls ++ as)).reverse ++ s.trace } := by
  rw [State.inWrite, State.exchanged, List.length_append, List.length_append, hf, s.skip_eq]

variable (hw : s.HostWaits) (hp : Polled polls ack)
include hw hp

theorem runs_writeCommand (ha : s.Supplies (frame ++ polls)) :
    Runs (8 + polls.length) (s.writeAccepted a)
      (ackDecision ack ((s.writeAccepted a).responded .wAck frame polls ack)) :=
  runs_command (s := s.writeAccepted a) (p := .wCmd) (q := .wAck) (f := ackDecision)
    (fun u hu => by simp only [sequence, hu]; rfl) (fun u hu => by simp only [sequence, hu]; rfl) rfl hw rfl rfl hf hp
    (State.Supplies.congr rfl rfl ha)

/-! ### The ends of WRITE_SECTOR (R224, R227, R228) -/

/-- WRITE_SECTOR whose acknowledgment `strict` mode does not take ends there (R224). -/
theorem runs_rejectedWrite (hmode : s.writeAckMode = .strict) (hack : ack ≠ 0x00#8) (ha : s.Supplies (frame ++ polls)) :
    Runs (8 + polls.length) (s.writeAccepted a)
      (((s.inWrite a frame polls ack [] [] .wAck s.cnt 8#10).reportR1 ack).raise (.io (.protocolError ack))) := by
  have hdecision : ackDecision ack ((s.writeAccepted a).responded .wAck frame polls ack) =
      ((s.writeAcknowledged a frame polls ack .wAck).reportR1 ack).raise (.io (.protocolError ack)) :=
    if_pos ⟨hmode, hack⟩
  have h := runs_writeCommand a hf hw hp ha
  rw [hdecision] at h
  rw [← State.writeAcknowledged_inBlock a hf .wAck]
  exact h

variable (haccept : ¬(s.writeAckMode = .strict ∧ ack ≠ 0x00#8)) {ignored : List Byte} (hi : ignored.length = 516)
include haccept hi

/-- WRITE_SECTOR whose acknowledgment is taken sends its data block, and then its busy polls follow (R225 to R227). -/
theorem runs_acceptedWrite {n : Nat} {t : State} {as : List Byte} (ha : s.Supplies (frame ++ polls ++ (ignored ++ as)))
    (hpolls : Transacts [.wBusy] n (s.inWrite a frame polls ack
      ([0xFE#8] ++ Memory.bytes s.buf ++ [0xFF#8, 0xFF#8, 0xFF#8]) ignored .wBusy 0 2#10) t) :
    Runs (8 + polls.length + (516 + n)) (s.writeAccepted a) t := by
  have hdecision : ackDecision ack ((s.writeAccepted a).responded .wAck frame polls ack) =
      s.writeAcknowledged a frame polls ack .wToken := if_neg haccept
  have hcommand := runs_writeCommand a hf hw hp ha.left
  rw [hdecision] at hcommand
  rw [← State.writeAcknowledged_inBlock a hf .wToken] at hpolls
  have hblock := transacts_writeBlock (s := s.writeAcknowledged a frame polls ack .wToken) rfl hi ha.writeAcknowledged.left
  exact hcommand.trans ((hblock.append hpolls).runs (by decide) rfl hw)

/-- WRITE_SECTOR ends with the first release of the line within the bound (R227). -/
theorem runs_releasedWrite {busy : List Byte} (hne : ∀ b ∈ busy, b ≠ 0xFF#8)
    (hbound : ∀ n, s.busyBound = some n → busy.length < n)
    (ha : s.Supplies (frame ++ polls ++ (ignored ++ (busy ++ [0xFF#8])))) :
    Runs (8 + polls.length + (516 + (busy.length + 1))) (s.writeAccepted a)
      ((s.inWrite a frame polls ack (writeBlockOuts (Memory.bytes s.buf) (busy.length + 1)) (ignored ++ (busy ++ [0xFF#8]))
        .wBusy (busy.length + 1) 2#10).succeed 0#16) := by
  have hpolls := transacts_writeRelease (s := s.writeAcknowledged a frame polls ack .wToken) (byte := 2#10)
    (tok := s.tok) (buf := s.buf) ((writeBlock_length s.buf).trans hi.symm) hne hbound ha.writeAcknowledged
  simp only [State.writeAcknowledged_inBlock a hf] at hpolls
  exact runs_acceptedWrite a hf hw hp haccept hi ha hpolls

/-- WRITE_SECTOR ends with the bound's last busy poll when none of them is a release (R228). -/
theorem runs_timedOutWrite {busy : List Byte} (hne : ∀ b ∈ busy, b ≠ 0xFF#8) (hpos : 0 < busy.length)
    (hbound : s.busyBound = some busy.length) (ha : s.Supplies (frame ++ polls ++ (ignored ++ busy))) :
    Runs (8 + polls.length + (516 + busy.length)) (s.writeAccepted a)
      ((s.inWrite a frame polls ack (writeBlockOuts (Memory.bytes s.buf) busy.length) (ignored ++ busy) .wBusy busy.length
        2#10).raise (.io .busyTimeout)) := by
  have hpolls := transacts_writeTimeout (s := s.writeAcknowledged a frame polls ack .wToken) (byte := 2#10)
    (tok := s.tok) (buf := s.buf) ((writeBlock_length s.buf).trans hi.symm) hne hpos hbound
    ha.writeAcknowledged
  simp only [State.writeAcknowledged_inBlock a hf] at hpolls
  exact runs_acceptedWrite a hf hw hp haccept hi ha hpolls

end

theorem not_strict_bad_ack {mode : AckMode} {ack : Byte} (h : mode = .permissive ∨ ack = 0x00#8) :
    ¬(mode = .strict ∧ ack ≠ 0x00#8) := by
  rintro ⟨rfl, hack⟩
  exact h.elim AckMode.noConfusion hack

/-- Settles O32: the acknowledgment is taken, and the busy poll ends with the first release of the line. -/
theorem writeSectorSendsTheBuffer : Obligations.WriteSectorSendsTheBuffer := by
  intro s a frame polls ignored busy ack hb hw hf hp haccept hi hne hbound ha
  rw [List.append_assoc (frame ++ polls)] at ha ⊢
  have hrun := runs_releasedWrite a hf hw hp (not_strict_bad_ack haccept) hi hne hbound ha
  have hn : (ignored ++ (busy ++ [0xFF#8])).length = 516 + (busy.length + 1) := by simp [hi]
  rw [State.inWrite_eq_skip a hf, hn, ← Nat.add_assoc (8 + polls.length)] at hrun
  exact ⟨_, exec_writeSector_of_idle hb a, hrun⟩

/-- Settles O33: `strict` mode does not take the acknowledgment. -/
theorem strictWriteStopsAtABadAcknowledgment : Obligations.StrictWriteStopsAtABadAcknowledgment := by
  intro s a frame polls ack hb hw hmode hf hp hack ha
  have hrun := runs_rejectedWrite a hf hw hp hmode hack ha
  rw [State.inWrite_eq_skip a hf, State.reportR1_eq, List.append_nil, List.append_nil] at hrun
  refine ⟨_, exec_writeSector_of_idle hb a, ?_⟩
  rw [s.skip_eq] at hrun ⊢
  exact hrun

/-- Settles O34: the acknowledgment is taken, and the busy poll reaches its bound. -/
theorem boundedBusyPollTimesOut : Obligations.BoundedBusyPollTimesOut := by
  intro s a frame polls ignored busy ack hb hw hf hp haccept hi hne hpos hbound ha
  rw [List.append_assoc (frame ++ polls)] at ha ⊢
  have hrun := runs_timedOutWrite a hf hw hp (not_strict_bad_ack haccept) hi hne hpos hbound ha
  rw [State.inWrite_eq_skip a hf, List.length_append, hi, ← Nat.add_assoc (8 + polls.length)] at hrun
  refine ⟨_, exec_writeSector_of_idle hb a, ?_⟩
  rw [s.skip_eq] at hrun ⊢
  exact hrun

end Sys2Proof.Machine
end

section
/-! The end of WRITE_SECTOR (R228, R231, R232): with a bound it comes whatever is answered, without one the busy poll can
go on for ever, and a later read that receives what the write sent stores the writer's buffer. -/

namespace Sys2Proof.Machine

/-! ### A bounded write ends (R231) -/

theorem AllExchanges.reverse {es : List Transaction} {n : Nat} (h : AllExchanges es n) : AllExchanges es.reverse n :=
  ⟨List.length_reverse.trans h.1, fun e he => h.2 e (List.mem_reverse.mp he)⟩

theorem writeOuts_length (a : Addr) {frame polls outs as : List Byte} (hf : frame.length = 8)
    (hl : outs.length = as.length) :
    (frameBytes 24#6 (offsetHi a) (offsetLo a) ++ idleBytes polls.length ++ outs).length =
      (frame ++ polls ++ as).length := by
  simp only [List.length_append, idleBytes_length, hf, hl]
  rfl

/-- A run of WRITE_SECTOR to an end, with all its exchanges in the trace. -/
theorem endsAfter_of_runs {s t : State} {a : Addr} {frame polls outs as : List Byte} (hf : frame.length = 8)
    (hl : outs.length = as.length) (hrun : Runs (8 + polls.length + as.length) (s.writeAccepted a) t)
    (hbusy : t.busy = false) (hphase : t.phase = .idle)
    (htrace : t.trace = (exchanges (frameBytes 24#6 (offsetHi a) (offsetLo a) ++ idleBytes polls.length ++ outs)
      (frame ++ polls ++ as)).reverse ++ s.trace) :
    s.EndsAfter (s.writeAccepted a) (8 + polls.length + as.length) := by
  have hn : (frame ++ polls ++ as).length = 8 + polls.length + as.length := by simp only [List.length_append, hf]
  have hnew := (allExchanges_exchanges (writeOuts_length a (polls := polls) hf hl)).reverse
  exact ⟨t, _, hrun, hbusy, hphase, htrace, hn ▸ hnew⟩

/-- Any answers to `n` busy polls release the line, or do not (R227, R228). -/
theorem exists_release_or_none {n : Nat} {l : List Byte} (h : n ≤ l.length) :
    (∃ busy rest, l = busy ++ [0xFF#8] ++ rest ∧ busy.length < n ∧ ∀ b ∈ busy, b ≠ 0xFF#8) ∨
      ∃ busy rest, l = busy ++ rest ∧ busy.length = n ∧ ∀ b ∈ busy, b ≠ 0xFF#8 := by
  have hn : (l.take n).length = n := List.length_take_of_le h
  by_cases hmem : 0xFF#8 ∈ l.take n
  · obtain ⟨busy, rest, hsplit, hne⟩ := List.eq_append_cons_of_mem hmem
    refine .inl ⟨busy, rest ++ l.drop n, ?_, ?_, fun b hb he => hne (he ▸ hb)⟩
    · calc l = l.take n ++ l.drop n := (List.take_append_drop n l).symm
        _ = busy ++ [0xFF#8] ++ (rest ++ l.drop n) := by simp [hsplit]
    · rw [hsplit, List.length_append, List.length_cons] at hn
      omega
  · exact .inr ⟨l.take n, l.drop n, (List.take_append_drop n l).symm, hn, fun b hb he => hmem (he ▸ hb)⟩

/-- The data block and the busy polls of a bounded write, whatever they are answered, come to an end (R227, R228). -/
theorem exists_acceptedWriteEnd {s : State} (a : Addr) {frame polls rest : List Byte} {ack : Byte} {bound : Nat}
    (hw : s.HostWaits) (hbound : s.busyBound = some bound) (hpos : 0 < bound) (hf : frame.length = 8)
    (hp : Polled polls ack) (haccept : ¬(s.writeAckMode = .strict ∧ ack ≠ 0x00#8)) (hl : 516 + bound ≤ rest.length)
    (ha : s.Supplies (frame ++ polls ++ rest)) :
    ∃ n, n ≤ 8 + polls.length + 516 + bound ∧ s.EndsAfter (s.writeAccepted a) n := by
  obtain ⟨ignored, polled, rfl, hi⟩ : ∃ ignored polled, rest = ignored ++ polled ∧ ignored.length = 516 :=
    ⟨rest.take 516, rest.drop 516, (List.take_append_drop 516 rest).symm, List.length_take_of_le (by omega)⟩
  rw [List.length_append, hi] at hl
  rw [← List.append_assoc] at ha
  obtain ⟨busy, unused, rfl, hlt, hne⟩ | ⟨busy, unused, rfl, rfl, hne⟩ :=
    exists_release_or_none (n := bound) (l := polled) (by omega)
  · rw [← List.append_assoc, List.append_assoc (frame ++ polls)] at ha
    have hn : (ignored ++ (busy ++ [0xFF#8])).length = 516 + (busy.length + 1) := by simp [hi]
    have hrun := runs_releasedWrite a hf hw hp haccept hi hne (fun n h => by cases hbound.symm.trans h; exact hlt) ha.left
    rw [← hn] at hrun
    exact ⟨_, by omega, endsAfter_of_runs hf ((writeBlockOuts_length _ _).trans hn.symm) hrun rfl rfl rfl⟩
  · rw [← List.append_assoc, List.append_assoc (frame ++ polls)] at ha
    have hn : (ignored ++ busy).length = 516 + busy.length := by rw [List.length_append, hi]
    have hrun := runs_timedOutWrite a hf hw hp haccept hi hne hpos hbound ha.left
    rw [← hn] at hrun
    exact ⟨_, by omega, endsAfter_of_runs hf ((writeBlockOuts_length _ _).trans hn.symm) hrun rfl rfl rfl⟩

theorem Polled.length_le {polls : List Byte} {r : Byte} (h : Polled polls r) : polls.length ≤ 8 := by
  obtain ⟨j, hj, rfl, -⟩ := h
  simpa [idleBytes_length] using Nat.succ_le_of_lt hj

/-- WRITE_SECTOR with a bound ends with its acknowledgment or with its busy poll. -/
theorem exists_writeEnd {s : State} (a : Addr) {bound : Nat} {l : List Byte} (hw : s.HostWaits)
    (hbound : s.busyBound = some bound) (hpos : 0 < bound) (hl : l.length = 532 + bound) (ha : s.Supplies l) :
    ∃ n, n ≤ 532 + bound ∧ s.EndsAfter (s.writeAccepted a) n := by
  obtain ⟨⟨frame, polls, ack⟩, rest, hvalid, rfl, hrest⟩ := exists_attempt (l := l) (by omega)
  obtain ⟨hf, hp⟩ : frame.length = 8 ∧ Polled polls ack := hvalid
  have ha' : s.Supplies (frame ++ polls ++ rest) := ha
  have hpolls := hp.length_le
  by_cases hreject : s.writeAckMode = .strict ∧ ack ≠ 0x00#8
  · have hrun := runs_rejectedWrite a hf hw hp hreject.1 hreject.2 ha'.left
    exact ⟨_, by rw [List.length_nil]; omega, endsAfter_of_runs (outs := []) (as := []) hf rfl hrun rfl rfl (by
      simp [State.inWrite, State.exchanged])⟩
  · obtain ⟨n, hn, hend⟩ := exists_acceptedWriteEnd a hw hbound hpos hf hp hreject (by omega) ha'
    exact ⟨n, by omega, hend⟩

/-- Settles O36: a completing line supplies a command's answers, and then those of a data block and of as many busy
polls as the bound. -/
theorem boundedWriteTerminates : Obligations.BoundedWriteTerminates := by
  intro s a bound hb hw hafter hbound hpos
  obtain ⟨l, hl, ha⟩ := State.exists_supplies hafter (532 + bound)
  obtain ⟨n, hn, t, new, hrun, hbusy, hphase, htrace, hlen, hnew⟩ := exists_writeEnd a hw hbound hpos hl ha
  exact ⟨n, _, t, new, hn, exec_writeSector_of_idle hb a, rfl, hrun, hbusy, hphase, htrace, hlen, hnew⟩

/-! ### An unbounded busy poll goes on (R228, R263) -/

/-- Answers that are all known and all have a property, as a list. -/
theorem State.exists_supplies_forall {s : State} {P : Byte → Prop} {n : Nat}
    (h : ∀ k, k < n → ∃ b, s.answerAt k = some b ∧ P b) :
    ∃ l : List Byte, l.length = n ∧ s.Supplies l ∧ ∀ b ∈ l, P b := by
  choose f hf using h
  refine ⟨List.ofFn fun k : Fin n => f k k.isLt, List.length_ofFn, fun k hk => ?_,
    List.forall_mem_ofFn_iff.mpr fun k => ?_⟩
  · rw [List.getElem_ofFn]
    exact (hf k _).1
  · exact (hf k k.isLt).2

/-- Settles O35: without a bound every busy poll not answered with the idle byte is followed by another one. -/
theorem unboundedBusyPollNeverEnds : Obligations.UnboundedBusyPollNeverEnds := by
  intro s n hb hp hnone hw h
  obtain ⟨as, rfl, ha, hne⟩ := State.exists_supplies_forall h
  have hpolls := transacts_busyPolls hp hne (by simp [hnone]) ha
  obtain ⟨hlen, -⟩ := allExchanges_exchanges (idleBytes_length as.length)
  refine ⟨s.afterPolls as, hpolls.runs (by decide) hb hw, hb, hp, rfl, ?_⟩
  show ((exchanges (idleBytes as.length) as).reverse ++ s.trace).length = _
  rw [List.length_append, List.length_reverse, hlen, Nat.add_comm]

/-! ### A write, and a read of what it sent (R232) -/

theorem newOuts_exchanges (old : List Transaction) {outs as : List Byte} (h : outs.length = as.length) :
    newOuts old ((exchanges outs as).reverse ++ old) = outs := by
  have hnew : ((exchanges outs as).reverse ++ old).take (((exchanges outs as).reverse ++ old).length - old.length)
      = (exchanges outs as).reverse := List.take_left' (by simp)
  rw [newOuts, hnew, List.reverse_reverse, exchanges, ← List.map_uncurry_zip_eq_zipWith, List.filterMap_map]
  calc _ = (outs.zip as).filterMap (some ∘ Prod.fst) := rfl
    _ = outs := by rw [List.filterMap_eq_map, List.map_fst_zip h.le]

/-- The payload among the bytes that a write sends stands after its command, its polls and its token (R97). -/
theorem payload_of_writeOuts (a : Addr) (buf : Memory) (k n : Nat) :
    ((frameBytes 24#6 (offsetHi a) (offsetLo a) ++ idleBytes k ++ writeBlockOuts (Memory.bytes buf) n).drop
      (8 + k + 1)).take 512 = Memory.bytes buf := by
  have hsplit : frameBytes 24#6 (offsetHi a) (offsetLo a) ++ idleBytes k ++ writeBlockOuts (Memory.bytes buf) n =
      (frameBytes 24#6 (offsetHi a) (offsetLo a) ++ idleBytes k ++ [0xFE#8])
        ++ (Memory.bytes buf ++ ([0xFF#8, 0xFF#8, 0xFF#8] ++ idleBytes n)) := by simp [writeBlockOuts]
  have hl : (frameBytes 24#6 (offsetHi a) (offsetLo a) ++ idleBytes k ++ [0xFE#8]).length = 8 + k + 1 := by
    rw [List.length_append, List.length_append, idleBytes_length]
    rfl
  rw [hsplit, List.drop_left' hl, List.take_left' (Memory.bytes_length buf)]

/-- READ_SECTOR that receives the bytes of a buffer as its payload stores that buffer (R207, R232). -/
theorem exists_readOf {r : State} (a : Addr) {buf : Memory} {frame polls : List Byte} {m : Nat} {c1 c2 : Byte}
    (hbuf : Memory.wf buf = true) (hwf : Memory.wf r.buf = true) (hb : r.busy = false) (hw : r.HostWaits)
    (hf : frame.length = 8) (hp : Polled polls 0x00#8) (hm : m < 65535)
    (ha : r.Supplies (frame ++ polls ++ (idleBytes m ++ [0xFE#8]) ++ Memory.bytes buf ++ [c1, c2])) :
    ∃ v w, exec (.readSector a) r = .next v ∧ Runs (8 + polls.length + (m + 1) + 514) v w ∧ w.result = .ok 0#16 ∧
      w.buf = buf ∧ w.argHi = offsetHi a ∧ w.argLo = offsetLo a := by
  have ht : TokenPolled (idleBytes m ++ [0xFE#8]) 0xFE#8 := ⟨m, hm, rfl, .inl (by decide)⟩
  have hn : (idleBytes m ++ [0xFE#8] ++ Memory.bytes buf ++ [c1, c2]).length = m + 1 + 514 := by
    simp [idleBytes_length, Memory.bytes_length]
  rw [List.append_assoc (frame ++ polls), List.append_assoc (frame ++ polls)] at ha
  have hrun := runs_acceptedRead a hf hw hp rfl ht (Memory.bytes_length buf) (sums := [c1, c2]) rfl ha
  rw [Memory.store_bytes hbuf hwf, hn, ← Nat.add_assoc _ (m + 1) 514] at hrun
  exact ⟨_, _, exec_readSector_of_idle hb a, hrun, rfl, rfl, rfl, rfl⟩

/-- Settles O37: the payload in the writer's trace is the writer's buffer, and a read stores it. -/
theorem writeThenReadRoundTrip : Obligations.WriteThenReadRoundTrip := by
  intro s r a f1 p1 ignored busy f2 p2 payload ack m c1 c2 hbuf hb hw hf hp haccept hi hne hbound ha
  obtain ⟨u, hexec, hrun⟩ := writeSectorSendsTheBuffer s a f1 p1 ignored busy ack hb hw hf hp haccept hi hne hbound ha
  refine ⟨u, _, hexec, hrun, rfl, fun hwf hb2 hw2 hf2 hp2 hm hpayload ha2 => ?_⟩
  have hl : (writeBlockOuts (Memory.bytes s.buf) (busy.length + 1)).length = (ignored ++ (busy ++ [0xFF#8])).length := by
    rw [writeBlockOuts_length, List.length_append, hi]
    simp
  rw [List.append_assoc (f1 ++ p1), newOuts_exchanges s.trace (writeOuts_length a hf hl), payload_of_writeOuts] at hpayload
  rw [hpayload] at ha2
  exact exists_readOf a hbuf hwf hb2 hw2 hf2 hp2 hm ha2

end Sys2Proof.Machine
end

section
/-! The control operations (46_control.md R240, R241). -/

namespace Sys2Proof.Machine

/-- An accepted control operation ends at once: `BUSY`, set by the acceptance, is cleared again in the same
step, and neither the transport nor the trace is touched (R240). -/
theorem State.control_accept (s : State) (c : BitVec 3) :
    (s.accept c).control
      = { s.ended (.ok (Config.controlValue s.draws)) with op := c, draws := s.draws + 1 } := rfl

theorem exec_controlNoop_of_idle {s : State} (hb : s.busy = false) (x : BitVec 32) :
    exec (.controlNoop x) s = .next (s.accept 0#3).control := by
  simp [exec, execControlNoop, hb]

theorem exec_controlQuerySectorCount_of_idle {s : State} (hb : s.busy = false) (x : BitVec 32) :
    exec (.controlQuerySectorCount x) s = .next (s.accept 4#3).control := by
  simp [exec, execControlQuerySectorCount, hb]

/-- Settles O26: both requests are accepted and end at once, each with its own code in `OP`. -/
theorem controlOperationsSucceedAtOnce : Obligations.ControlOperationsSucceedAtOnce := by
  intro s x hb
  constructor
  · rw [exec_controlNoop_of_idle hb, State.control_accept]
  · rw [exec_controlQuerySectorCount_of_idle hb, State.control_accept]

end Sys2Proof.Machine
end

section
/-! The faults of a state the block can be in (R261, R262): a transaction that never completes, of the running operation or of a
procedure run on its own, and nothing else; a diagnostic sink stops no step and changes none (R257). -/

namespace Sys2Proof.Machine

/-! ### The transport -/

theorem State.consume_record_xport_after (s : State) (e : Transaction) : (s.consume.record e).xport.after = s.xport.after := by
  rcases hx : s.xport with ⟨_ | ⟨a, rest⟩, after, inits⟩ <;> cases after <;> simp [State.consume, hx]

theorem State.after_eq_hung_of_answerAt {s : State} {k : Nat} (h : s.answerAt k = none) : s.xport.after = .hung := by
  by_contra hne
  obtain ⟨b, hb⟩ := State.exists_answerAt hne k
  simp [h] at hb

/-! ### The running operation -/

/-- The transport does not complete the running operation's next transaction (R261, R262). -/
def State.Uncompleted (s : State) : Prop :=
  (s.phase = .iXportInit ∧ s.xport.inits = some 0) ∨ (s.phase ≠ .idle ∧ s.phase ≠ .iXportInit ∧ s.answerAt 0 = none)

theorem State.Inv.indexFits {s : State} (hs : s.Inv) : s.IndexFits := by
  have hc := hs.countersFit
  rintro (hp | hp) <;> simpa [State.CountersFit, hp] using hc

theorem State.Uncompleted.hung {s : State} (h : s.Uncompleted) :
    s.xport.after = .hung ∨ (s.phase = .iXportInit ∧ s.xport.inits = some 0) := by
  obtain hinit | ⟨-, -, ha⟩ := h
  · exact .inr hinit
  · exact .inl (State.after_eq_hung_of_answerAt ha)

theorem State.Completes.not_uncompleted {s : State} (h : s.Completes) : ¬ s.Uncompleted := by
  obtain ⟨hafter, hinits⟩ := h
  intro hu
  obtain hhung | ⟨-, hzero⟩ := hu.hung
  · exact hafter hhung
  · simp [hinits] at hzero

/-- All that the sequencer can do in a state that meets the invariant: fault exactly where the transport does not complete its
transaction, and otherwise go on. -/
theorem State.Inv.sequence_cases {s : State} (hs : s.Inv) :
    (s.Uncompleted ∧ sequence s = .fault .transportNeverCompletes) ∨ (¬ s.Uncompleted ∧ ∃ t, sequence s = .next t) := by
  by_cases hi : s.phase = .idle
  · exact .inr ⟨by simp [State.Uncompleted, hi], s, by simp [sequence, hi]⟩
  by_cases hx : s.phase = .iXportInit
  · have hseq : sequence s = stepXportInit s := by simp only [sequence, hx]
    by_cases hinit : s.xport.inits = some 0
    · exact .inl ⟨.inl ⟨hx, hinit⟩, hseq.trans (if_pos hinit)⟩
    · exact .inr ⟨by simp [State.Uncompleted, hx, hinit], _, hseq.trans (if_neg hinit)⟩
  · rw [sequence_eq_xchg hi hx hs.indexFits]
    obtain ⟨i, ha, he⟩ | ⟨ha, he⟩ := xchg_cases s.sends s fun i t => .next (afterAnswer s.phase i t)
    · exact .inr ⟨by simp [State.Uncompleted, hx, ha], _, he⟩
    · exact .inl ⟨.inr ⟨hi, hx, ha⟩, he⟩

/-! ### A procedure run on its own -/

/-- The only fault of `g` is a transaction that never completes, on a line whose exchanges hang. -/
def FaultsWhenHung (g : State → Out) : Prop :=
  ∀ (s : State) (r : Fault), g s = .fault r → r = .transportNeverCompletes ∧ s.xport.after = .hung

theorem FaultsWhenHung.next (g : State → State) : FaultsWhenHung fun s => .next (g s) :=
  fun _ _ h => nomatch h

theorem FaultsWhenHung.ite {c : State → Prop} [DecidablePred c] {g h : State → Out} (hg : FaultsWhenHung g)
    (hh : FaultsWhenHung h) : FaultsWhenHung fun s => if c s then g s else h s := by
  intro s r hr
  by_cases hc : c s
  · exact hg s r (by simpa [hc] using hr)
  · exact hh s r (by simpa [hc] using hr)

/-- An assignment before `g` leaves the transport alone. -/
theorem FaultsWhenHung.comp {g : State → Out} {h : State → State} (hg : FaultsWhenHung g)
    (hh : ∀ s, (h s).xport = s.xport) : FaultsWhenHung fun s => g (h s) :=
  fun s r hr => hh s ▸ hg (h s) r hr

theorem FaultsWhenHung.xchg {o : State → Byte} {k : Byte → State → Out} (hk : ∀ i, FaultsWhenHung (k i)) :
    FaultsWhenHung fun s => xchg (o s) s k := by
  intro s r hr
  obtain ⟨i, -, he⟩ | ⟨ha, he⟩ := xchg_cases (o s) s k
  · obtain ⟨hfault, hhung⟩ := hk i _ r (he.symm.trans hr)
    exact ⟨hfault, s.consume_record_xport_after _ ▸ hhung⟩
  · cases he.symm.trans hr
    exact ⟨rfl, State.after_eq_hung_of_answerAt ha⟩

theorem FaultsWhenHung.frameStep {done more : State → Out} (hd : FaultsWhenHung done) (hm : FaultsWhenHung more) :
    FaultsWhenHung fun s => frameStep s done more :=
  FaultsWhenHung.xchg fun _ => .ite (hd.comp fun _ => rfl) (hm.comp fun _ => rfl)

theorem FaultsWhenHung.pollStep {done : Byte → State → Out} {more : State → Out} (hd : ∀ r, FaultsWhenHung (done r))
    (hm : FaultsWhenHung more) : FaultsWhenHung fun s => pollStep s done more :=
  FaultsWhenHung.xchg fun r => .ite ((hd r).comp fun _ => rfl) (hm.comp fun _ => rfl)

theorem FaultsWhenHung.sendFrame {k : State → Out} (hk : FaultsWhenHung k) (n : Nat) :
    FaultsWhenHung fun s => sendFrame n s k := by
  induction n with
  | zero => exact hk
  | succ n ih => exact hk.frameStep ih

theorem faultsWhenHung_sendCommand (index : BitVec 6) (hi lo : Half) :
    FaultsWhenHung fun s => sendCommand index hi lo s .next :=
  ((FaultsWhenHung.next id).sendFrame Config.frameLen).comp fun _ => rfl

theorem FaultsWhenHung.pollR1 {k : Byte → State → Out} (hk : ∀ r, FaultsWhenHung (k r)) (n : Nat) :
    FaultsWhenHung fun s => pollR1 n s k := by
  induction n with
  | zero => exact fun s => hk s.r1 s
  | succ n ih => exact .pollStep hk ih

theorem FaultsWhenHung.readR1 {k : Byte → State → Out} (hk : ∀ r, FaultsWhenHung (k r)) :
    FaultsWhenHung fun s => readR1 s k :=
  (FaultsWhenHung.pollR1 hk Config.nR1Poll).comp fun _ => rfl

theorem FaultsWhenHung.readR2 {k : Half → State → Out} (hk : ∀ w, FaultsWhenHung (k w)) :
    FaultsWhenHung fun s => readR2 s k :=
  .readR1 fun high => .xchg fun low => (hk (composeR2 high low)).comp fun _ => rfl

/-- An instruction presented while no operation runs faults only where an exchange of its own hangs. -/
theorem exec_fault_of_idle {i : Instr} {s : State} {r : Fault} (hb : s.busy = false) (h : exec i s = .fault r) :
    r = .transportNeverCompletes ∧ s.xport.after = .hung := by
  cases i with
  | sendCommand | cmd0 | cmd1 | cmd13 | cmd17 | cmd24 => exact faultsWhenHung_sendCommand _ _ _ s r h
  | readR1 =>
    exact FaultsWhenHung.readR1 (k := fun b t => .next { t with returned := .byte b }) (fun _ => .next _) s r h
  | readR2 =>
    exact FaultsWhenHung.readR2 (k := fun w t => .next { t with returned := .word w }) (fun _ => .next _) s r h
  | idle =>
    exact FaultsWhenHung.xchg (o := fun _ => Config.idleByte) (k := fun b t => .next { t with returned := .byte b })
      (fun _ => .next _) s r h
  | dataStartToken => exact FaultsWhenHung.xchg (o := fun _ => Config.tokenStart) (fun _ => .next id) s r h
  | rdblock =>
    rw [exec_rdblock_of_not (by simp [hb])] at h
    cases h
  | wrblock =>
    rw [exec_wrblock_of_not (by simp [hb])] at h
    cases h
  | _ => cases h

theorem takeMove_fault {m : HostMove} {s : State} {r : Fault} (hb : s.busy = false) (h : takeMove m s = .fault r) :
    r = .transportNeverCompletes ∧ s.xport.after = .hung := by
  cases m with
  | request bytes =>
    simp only [takeMove] at h
    split at h
    · exact exec_fault_of_idle hb h
    · cases h
  | setBusyBound bound =>
    simp only [takeMove] at h
    split at h <;> cases h
  | _ => cases h

/-! ### A step -/

/-- Settles O48: a step that faults is the running operation's transaction or an instruction presented in `Idle`. -/
theorem onlyAHungTransportFaults : Obligations.OnlyAHungTransportFaults := by
  intro s r hs h
  obtain ⟨line, rest, -, he⟩ | ⟨-, moves, he⟩ | ⟨-, he⟩ | ⟨-, moves, he⟩ | ⟨hb, m, rest, -, he⟩ := step_cases s <;>
    rw [he] at h
  · cases h
  · obtain ⟨hu, hseq⟩ | ⟨-, t, hseq⟩ := (hs.withHost moves).sequence_cases <;> cases hseq.symm.trans h
    exact ⟨rfl, hu.hung⟩
  · cases h
  · cases h
  · obtain ⟨hr, hhung⟩ := takeMove_fault (s := { s with host := rest }) hb h
    exact ⟨hr, .inl hhung⟩

/-- Settles O49: while the host waits the step is the sequencer's, which makes the transaction that does not complete. -/
theorem uncompletedTransactionStopsTheOperation : Obligations.UncompletedTransactionStopsTheOperation := by
  intro s hs hb hw hu
  have hstuck : s.Uncompleted := hu.imp_right fun ⟨hx, ha⟩ => ⟨hs.busyIff.mp hb, hx, ha⟩
  obtain ⟨-, hseq⟩ | ⟨hgoes, -⟩ := hs.sequence_cases
  · exact (step_of_busy hb hw).trans hseq
  · exact absurd hstuck hgoes

/-- While an operation runs, a host that leaves the buffer alone either resets the block or leaves the step to the sequencer. -/
theorem step_of_busy_of_no_store {s : State} (hb : s.busy = true)
    (hstore : ∀ index value rest, s.host ≠ .storeBuffer index value :: rest) :
    (∃ t, step s = .next t) ∨ ∃ moves, step s = sequence { s with host := moves } := by
  unfold step nextStep
  split
  · exact .inr ⟨s.host, if_pos hb⟩
  · exact .inl ⟨_, rfl⟩
  · exact .inr ⟨_, if_pos hb⟩
  · exact .inr ⟨_, if_pos hb⟩
  · exact .inr ⟨s.host, if_pos hb⟩
  · next m rest _ _ _ _ hh =>
    rw [if_pos hb]
    cases m with
    | storeBuffer index value => exact absurd hh (hstore index value rest)
    | reset line => exact .inl ⟨_, rfl⟩
    | _ => exact .inr ⟨rest, rfl⟩

/-- Settles O50: the sequencer stops only where the transport does not complete its transaction. -/
theorem runningOperationIsNeverStuck : Obligations.RunningOperationIsNeverStuck := by
  intro s hs hb hc hstore
  obtain hnext | ⟨moves, he⟩ := step_of_busy_of_no_store hb hstore
  · exact hnext
  · obtain ⟨hu, -⟩ | ⟨-, t, ht⟩ := (hs.withHost moves).sequence_cases
    · exact absurd hu (State.Completes.not_uncompleted hc)
    · exact ⟨t, he.trans ht⟩

/-! ### Diagnostics (R162, R257) -/

/-- Settles O58: no step reads the sink or its history. -/
theorem diagnosticsNeverChangeAnythingElse : Obligations.DiagnosticsNeverChangeAnythingElse :=
  Unread.diagnostics.step fun _ => rfl

end Sys2Proof.Machine
end

section
/-! How the host's request becomes an instruction (R267, R269; log entries 6, 28), and a request presented too early. -/

namespace Sys2Proof.Machine

/-- Settles O5. -/
theorem stepRunsTheDecodedRequest : Obligations.StepRunsTheDecodedRequest := by
  intro s bytes rest i hb hh hd
  rw [step_of_request hb hh]
  simp only [takeMove, hd]

/-- Settles O6. -/
theorem undecodableRequestIsRefused : Obligations.UndecodableRequestIsRefused := by
  intro s bytes rest e hb hh hd
  rw [step_of_request hb hh]
  simp only [takeMove, hd]

theorem decode_tableBytes_of_decodeTableWord {nbits w : Nat} {i : Instr} (h : decodeTableWord nbits w = some i) :
    decode (tableBytes nbits w) = .ok i := by
  unfold decodeTableWord at h
  split at h
  · next hd => rw [hd, Option.some.inj h]
  · cases h

/-- Settles O7: the placed word is the host's next request. -/
theorem placedWordRunsNext : Obligations.PlacedWordRunsNext :=
  fun s nbits w i h => stepRunsTheDecodedRequest (s.withFetchWord nbits w) (tableBytes nbits w) s.host i rfl rfl
    (decode_tableBytes_of_decodeTableWord h)

/-- Settles O27: each of the five operations tests `BUSY` first, and the other three codes name none. -/
theorem requestWhileBusyHasNoEffect : Obligations.RequestWhileBusyHasNoEffect := by
  intro s op a hb
  unfold hostInstr
  split
  case h_1 | h_2 | h_3 | h_4 | h_5 => exact congrArg Host.Outcome.next (if_pos hb)
  case h_6 | h_7 | h_8 => rfl

end Sys2Proof.Machine
end

section
/-! The encoder writes what the decoder has read (R58, R80 to R103; log entries 7, 15, 29): for each format, then for each port. -/

namespace Sys2Proof.Machine

/-! ### Selectors, and words from their bytes -/

theorem eq_ofNat_of_toNat_eq {w n : Nat} {b : BitVec w} (h : b.toNat = n) : b = BitVec.ofNat w n := by
  rw [← h, BitVec.ofNat_toNat, BitVec.setWidth_eq]

theorem Selector.code_of_ofByte {b : Byte} {p : Selector} (h : Selector.ofByte b = some p) : p.code = b := by
  unfold Selector.ofByte at h
  split at h <;> cases h <;> next hb => exact (eq_ofNat_of_toNat_eq hb).symm

theorem half_high (hi lo : Byte) : (half hi lo).high = hi := BitVec.extractLsb'_append_eq_left

theorem half_low (hi lo : Byte) : (half hi lo).low = lo := BitVec.extractLsb'_append_eq_right

theorem addrBytes_word32 (b3 b2 b1 b0 : Byte) : addrBytes (word32 b3 b2 b1 b0) = [b3, b2, b1, b0] := by
  have hskip : ∀ {v k : Nat} (x : BitVec v) (b : Byte), 8 ≤ k → (x ++ b).extractLsb' k 8 = x.extractLsb' (k - 8) 8 :=
    fun x b hk => BitVec.extractLsb'_append_eq_of_le hk
  have h3 : (word32 b3 b2 b1 b0).extractLsb' 24 8 = b3 := by
    rw [word32, hskip _ b0 (by decide), hskip _ b1 (by decide)]
    exact BitVec.extractLsb'_append_eq_left
  have h2 : (word32 b3 b2 b1 b0).extractLsb' 16 8 = b2 := by
    rw [word32, hskip _ b0 (by decide), hskip _ b1 (by decide)]
    exact BitVec.extractLsb'_append_eq_right
  have h1 : (word32 b3 b2 b1 b0).extractLsb' 8 8 = b1 := by
    rw [word32, hskip _ b0 (by decide)]
    exact BitVec.extractLsb'_append_eq_right
  have h0 : (word32 b3 b2 b1 b0).extractLsb' 0 8 = b0 := BitVec.extractLsb'_append_eq_right
  rw [addrBytes, h3, h2, h1, h0]

/-! ### Command frames (R81, R86) -/

theorem frameBytes_of_decodeFrame {l : List Byte} {f : Frame} (h : decodeFrame l = .ok f) :
    frameBytes f.index f.argHi f.argLo = l := by
  unfold decodeFrame at h
  split at h
  · next c h1 h0 l1 l0 _ _ =>
    split at h
    · next hconst =>
      obtain ⟨rfl, hflag, rfl, rfl⟩ := hconst
      cases h
      have hc : Config.cmdFlag ||| (c.extractLsb' 0 6).setWidth 8 = c := by
        have hjoin : c.extractLsb' 6 2 ++ c.extractLsb' 0 6 = c.extractLsb' 0 8 :=
          BitVec.extractLsb'_append_extractLsb'_eq_extractLsb' rfl
        rw [commandByte_eq_append, ← hflag, hjoin, BitVec.extractLsb'_eq_self]
      simp only [frameBytes, hc, half_high, half_low]
    · cases h
  · cases h

/-- A sector command's frame holds the whole offset: its nine low bits are zero. -/
theorem byteOffset_sectorOf {hi lo : Half} (h : lo.setWidth 9 = 0#9) : byteOffset (sectorOf hi lo) = hi ++ lo := by
  have hlow : lo.toNat % 2 ^ 9 = 0 := by simpa using congrArg BitVec.toNat h
  have hlo := lo.isLt
  have hhi := hi.isLt
  apply BitVec.eq_of_toNat_eq
  rw [byteOffset_toNat, sectorOf, BitVec.toNat_ushiftRight, BitVec.toNat_append, Nat.shiftRight_eq_div_pow,
    ← Nat.shiftLeft_add_eq_or_of_lt hlo, Nat.shiftLeft_eq]
  omega

theorem offset_sectorOf {hi lo : Half} (h : lo.setWidth 9 = 0#9) :
    offsetHi (sectorOf hi lo) = hi ∧ offsetLo (sectorOf hi lo) = lo := by
  rw [offsetHi, offsetLo, byteOffset_sectorOf h]
  exact ⟨BitVec.extractLsb'_append_eq_left, BitVec.extractLsb'_append_eq_right⟩

/-- The bytes presented at a port are those of the instruction, and the port is its own. -/
def Spells (p : Selector) (body : List Byte) (i : Instr) : Prop := i.selector = p ∧ i.body = body

theorem spells_of_commandOf {f : Frame} {i : Instr} (h : commandOf f = .ok i) :
    Spells .command (frameBytes f.index f.argHi f.argLo) i := by
  unfold commandOf at h
  split at h
  case _ hn | _ hn | _ hn =>
    split at h <;> cases h
    next hz => exact ⟨rfl, by rw [eq_ofNat_of_toNat_eq hn, hz.1, hz.2]; rfl⟩
  case _ hn | _ hn =>
    split at h <;> cases h
    next hz =>
      obtain ⟨hhi, hlo⟩ := offset_sectorOf (hi := f.argHi) hz
      exact ⟨rfl, by rw [eq_ofNat_of_toNat_eq hn, Instr.body, hhi, hlo]⟩
  · cases h

/-! ### Request words and result words (R98, R100) -/

theorem spells_of_decodeHostReq {l : List Byte} {i : Instr} (h : decodeHostReq l = .ok i) : Spells .hostReq l i := by
  unfold decodeHostReq at h
  split at h
  · simp only at h
    split at h <;> cases h <;> next ho =>
      exact ⟨rfl, by rw [eq_ofNat_of_toNat_eq ho, Instr.body, hostReqBytes, addrBytes_word32]; rfl⟩
  · cases h

theorem spells_of_decodeResult {l : List Byte} {i : Instr} (h : decodeResult l = .ok i) : Spells .result l i := by
  unfold decodeResult at h
  split at h
  · simp only at h
    split at h
    case h_9 => split at h <;> cases h
    all_goals
      cases h
      next hs => exact ⟨rfl, by rw [eq_ofNat_of_toNat_eq hs, Instr.body, resultBytes, half_high, half_low]; rfl⟩
  · cases h

/-! ### Arms of the classifiers, and labels (R101, R156, R158) -/

theorem spells_decodeR1Arm (b : Byte) : Spells .r1Arm [b] (decodeR1Arm b) := by
  unfold decodeR1Arm
  split
  case h_8 => exact ⟨rfl, rfl⟩
  all_goals next hb => exact ⟨rfl, by rw [eq_ofNat_of_toNat_eq hb]; rfl⟩

theorem spells_decodeR2Arm (hi lo : Byte) : Spells .r2Arm [hi, lo] (decodeR2Arm hi lo) := by
  unfold decodeR2Arm
  split
  case h_11 => exact ⟨rfl, rfl⟩
  case h_10 => exact ⟨rfl, by rw [eq_ofNat_of_toNat_eq ‹hi.toNat = 0›]; rfl⟩
  all_goals next hhi hlo => exact ⟨rfl, by rw [eq_ofNat_of_toNat_eq hhi, eq_ofNat_of_toNat_eq hlo]; rfl⟩

theorem R1Label.code_of_ofCode {n : Nat} {raw : Byte} {l : R1Label} (h : R1Label.ofCode n raw = some l) :
    l.code = BitVec.ofNat 8 n := by
  unfold R1Label.ofCode at h
  split at h <;> cases h <;> rfl

theorem R2Label.code_of_ofCode {n : Nat} {hi lo : Byte} {l : R2Label} (h : R2Label.ofCode n hi lo = some l) :
    l.code = BitVec.ofNat 8 n := by
  unfold R2Label.ofCode at h
  split at h
  case h_11 =>
    split at h
    · cases h
    · next hn =>
      obtain ⟨l, hl, rfl⟩ := Option.map_eq_some_iff.mp h
      rw [R2Label.code, R1Label.code_of_ofCode hl, ← BitVec.ofNat_add]
      congr 1
      omega
  all_goals
    cases h
    rfl

/-! ### The ports -/

theorem spells_of_decodeAt {p : Selector} {l : List Byte} {i : Instr} (h : decodeAt p l = .ok i) : Spells p l i := by
  cases p with
  | hostReq => exact spells_of_decodeHostReq h
  | result => exact spells_of_decodeResult h
  | frame =>
    simp only [decodeAt] at h
    split at h <;> cases h
    next hf => exact ⟨rfl, frameBytes_of_decodeFrame hf⟩
  | command =>
    simp only [decodeAt] at h
    split at h
    · next hf => exact frameBytes_of_decodeFrame hf ▸ spells_of_commandOf h
    · cases h
  | pollR1 | pollR2 =>
    simp only [decodeAt] at h
    split at h
    · split at h <;> cases h
      next hb => exact ⟨rfl, hb ▸ rfl⟩
    · cases h
  | token | r1Value =>
    simp only [decodeAt] at h
    split at h
    · split at h
      · cases h
        next hb => exact ⟨rfl, hb ▸ rfl⟩
      · split at h <;> cases h
        next hb => exact ⟨rfl, hb ▸ rfl⟩
    · cases h
  | r1Arm =>
    simp only [decodeAt] at h
    split at h <;> cases h
    exact spells_decodeR1Arm _
  | r2Arm =>
    simp only [decodeAt] at h
    split at h <;> cases h
    exact spells_decodeR2Arm _ _
  | classR1 | readBlock | writeBlock =>
    simp only [decodeAt] at h
    split at h <;> cases h
    exact ⟨rfl, rfl⟩
  | classR2 =>
    simp only [decodeAt] at h
    split at h <;> cases h
    exact ⟨rfl, by rw [Instr.body, half_high, half_low]⟩
  | diagR1 =>
    simp only [decodeAt] at h
    split at h
    · split at h <;> cases h
      next hc => exact ⟨rfl, by rw [Instr.body, R1Label.code_of_ofCode hc, BitVec.ofNat_toNat, BitVec.setWidth_eq]⟩
    · cases h
  | diagR2 =>
    simp only [decodeAt] at h
    split at h
    · split at h <;> cases h
      next hc =>
        exact ⟨rfl, by
          rw [Instr.body, R2Label.code_of_ofCode hc, BitVec.ofNat_toNat, BitVec.setWidth_eq, half_high, half_low]⟩
    · cases h

/-- Settles O2: the port that reads an instruction is the instruction's own, and what it has read are the instruction's bits. -/
theorem decodedBytesAreTheEncoding : Obligations.DecodedBytesAreTheEncoding := by
  intro bytes i h
  unfold decode at h
  split at h
  · cases h
  · split at h
    · next hp =>
      obtain ⟨hport, hbody⟩ := spells_of_decodeAt h
      rw [encode, hport, hbody, Selector.code_of_ofByte hp]
    · cases h

/-- Settles O3: the decoder run on each word. -/
theorem specWordsDecode : Obligations.SpecWordsDecode :=
  ⟨rfl, rfl, rfl, rfl, rfl, rfl, rfl⟩

end Sys2Proof.Machine
end
